-- ==== Sys2Proof/Word.lean ====
section
/-! DEFINITION. The words of the LK36: the 8 data bits of a character and the 7-bit station address. -/

namespace Sys2Proof

/-- The 8 data bits of one character (R138). -/
abbrev Byte := BitVec 8

/-- A station address, 0..127 (00_scope, R140). -/
abbrev Addr := BitVec 7

end Sys2Proof
end

