-- ==== Sys2Proof/Syntax.lean ====
section
/-! DEFINITION. The commands of the LK36: one constructor for each row of spec/opcode_table.json. -/

namespace Sys2Proof

/-- A line port, or a side of the station map (R204: U 0, D 1). -/
inductive Port
  | u
  | d
  deriving DecidableEq, Repr

/-- One character as a port's receiver meets it (R138, R139): its 8 data bits, its mark flag, the
parity bit it carries when parity is on, and whether its stop element is there. -/
structure LineChar where
  value : Byte
  mark : Bool
  parity : Bool
  stop : Bool
  deriving DecidableEq, Repr

/-- A good frame (R140): header and payload. The length is the payload's, and the check is the one
R141 computes over them (log 10). -/
structure Frame where
  dst : Addr
  src : Addr
  kind : Byte
  payload : List Byte
  deriving DecidableEq, Repr

/-- The 40 commands. A request row carries the address its MREQ comes from and the parameters of
R206 at their widths (log 4). -/
inductive Instr
  /-- POWER_UP (R203). -/
  | powerUp
  /-- PIN_RESET (R203). -/
  | pinReset
  /-- PIN_RESET_RELEASE (R203). -/
  | pinResetRelease
  /-- CHARACTER_RECEIVED (R142). -/
  | characterReceived (p : Port) (c : LineChar)
  /-- ARRIVAL (R178). -/
  | arrival (p : Port) (f : Frame)
  /-- TURNS (R41): a tapped report of the head with this unit. -/
  | turns (unit : Fin 24) (payload : List Byte)
  /-- HAUL (R20). -/
  | haul (payload : List Byte)
  /-- ROWDONE (R66). -/
  | rowdone (payload : List Byte)
  /-- CUTDONE (R97). -/
  | cutdone (payload : List Byte)
  /-- TAKE (R102). -/
  | take (payload : List Byte)
  /-- PACKED (R104), from this source. -/
  | packed (src : Addr) (payload : List Byte)
  /-- MREQ (R170). -/
  | mreq (p : Port) (src : Addr) (payload : List Byte)
  /-- READ_ROW (R198). -/
  | readRow (src : Addr) (table : Byte) (row : BitVec 16) (page : Byte)
  /-- WRITE_FIELDS (R196): (field number, value) pairs. -/
  | writeFields (src : Addr) (table : Byte) (row : BitVec 16) (pairs : List (Byte × BitVec 32))
  /-- SET_MODE (R3). -/
  | setMode (src : Addr) (target : Byte)
  /-- SET_PRODUCT (R110). -/
  | setProduct (src : Addr) (slot : Byte)
  /-- SET_NEXT (R113): a slot, or 255 for none. -/
  | setNext (src : Addr) (slot : Byte)
  /-- RELEASE (R15). -/
  | release (src : Addr)
  /-- CUT (R93). -/
  | cut (src : Addr)
  /-- CLEAR_FAULT (R131). -/
  | clearFault (src : Addr) (kind : Byte) (source : BitVec 16)
  /-- CLEAR_ALL (R132). -/
  | clearAll (src : Addr)
  /-- READ_FAULTS (R135). -/
  | readFaults (src : Addr) (part : Byte) (index : Byte)
  /-- READ_COIL (R105). -/
  | readCoil (src : Addr) (record : Byte) (page : Byte)
  /-- READ_HEAD (R56). -/
  | readHead (src : Addr) (unit : Byte)
  /-- READ_MESH (R81). -/
  | readMesh (src : Addr) (page : Byte)
  /-- READ_STATUS (R199). -/
  | readStatus (src : Addr) (page : Byte)
  /-- READ_COUNTERS (R154). -/
  | readCounters (src : Addr) (port : Byte)
  /-- CLEAR_COUNTERS (R154). -/
  | clearCounters (src : Addr)
  /-- SET_ADDRESS (R200). -/
  | setAddress (src : Addr) (address : Byte)
  /-- RESET (R202). -/
  | reset (src : Addr)
  /-- TIME_BASE_EXPIRY (R31). -/
  | timeBaseExpiry
  /-- HAULWATCH_UNDERFLOW (R32). -/
  | haulwatchUnderflow
  /-- CUTWAIT_UNDERFLOW (R100). -/
  | cutwaitUnderflow
  /-- COIL_UNDERFLOW (R92), within this amount. -/
  | coilUnderflow (amount : Nat)
  /-- MARK_UNDERFLOW (R101), within this amount. -/
  | markUnderflow (amount : Nat)
  /-- WINDOW_END (R46), within this amount. -/
  | windowEnd (amount : Nat)
  /-- HOLD_IN_ASSERTED (R151). -/
  | holdInAsserted (p : Port)
  /-- HOLD_IN_RELEASED (R151). -/
  | holdInReleased (p : Port)
  /-- TRANSMIT_START (R149). -/
  | transmitStart (p : Port)
  /-- DEPARTURE (R150). -/
  | departure (p : Port)
  deriving DecidableEq, Repr

end Sys2Proof
end

