-- ==== Sys2Proof/Config.lean ====
section
/-! DEFINITION. The free values: what the manual leaves open while the part goes on.
Each is a constant without a body, so nothing can be proved of its value. -/

namespace Sys2Proof.Config

/-- R31: when HAULWATCH and CUTWAIT underflow at one expiry, whether HAULWATCH's hand-over is taken
first ("in either order"). Applied to the count of free values drawn (log 7). -/
opaque haulwatchFirst : Nat → Bool

/-- R204, R206: the two characters sent as the expected row while it is UNSYNCED; the manual gives
only the synced character then. Applied to the count of free values drawn (log 21). -/
opaque unsyncedExpectedRow : Nat → BitVec 16

/-- R98: the points left to the closing record when the removed entries' points exceed the record's,
which the manual states only "as long as no sum has saturated" (R88). A function of the record's
points and the removed points (log 19). -/
opaque pointsAfterSplit : Nat → Nat → BitVec 32

/-- R28: the mark length where the open coil's length is smaller than preset minus reloaded value,
which no HAUL can bring about. A function of the two lengths (log 20). -/
opaque markLengthBelowZero : Nat → Nat → BitVec 32

end Sys2Proof.Config
end

