-- ==== Sys2Proof/Machine/Records.lean ====
section
/-! DEFINITION. The records the state is made of: named values, table rows, counters, heads, cursor,
coil and fault records, ports and frame store. Plain data only. -/

namespace Sys2Proof.Machine

/-- A head unit, 0..23. -/
abbrev HeadUnit := Fin 24

/-- A product slot, 0..7. -/
abbrev Slot := Fin 8

/-- A mesh pattern step, 0..63. -/
abbrev StepIndex := Fin 64

/-- The line mode (R1). -/
inductive Mode
  | parked
  | threading
  | run
  | creep
  | halted
  deriving DecidableEq, Repr

/-- A speed command of the latch (R16, R164). -/
inductive SpeedCommand
  | go
  | creep
  | halt
  deriving DecidableEq, Repr

/-- A station's role in the station map (R176). -/
inductive Role
  | unused
  | master
  | head
  | knotter
  | hauloff
  | cutter
  | packer
  | other
  deriving DecidableEq, Repr

/-- An entry of the action table (R185). -/
inductive Action
  | forward
  | clamp
  | block
  deriving DecidableEq, Repr

/-- A fault class (R123). -/
inductive FaultClass
  | note
  | alarm
  | creep
  | halt
  deriving DecidableEq, Repr

/-- A product's kind (R195). -/
inductive ProductKind
  | twineNet
  | rope
  deriving DecidableEq, Repr

/-- The twist direction of a lay row (R195). -/
inductive Direction
  | s
  | z
  deriving DecidableEq, Repr

/-- A head's standing (R38). -/
inductive HeadState
  | unused
  | settling
  | tracking
  | drift
  | stale
  | broken
  deriving DecidableEq, Repr

/-- A coil record's state (R84). -/
inductive CoilState
  | opened
  | cutWaitRoom
  | cutWaitSend
  | cutting
  | closed
  | labelled
  deriving DecidableEq, Repr

/-- A closed coil's grade (R89). -/
inductive Grade
  | a
  | b
  | c
  | reject
  deriving DecidableEq, Repr

/-- The 19 fault kinds, in the order of R122. -/
inductive FaultKind
  | strandBreak
  | layDrift
  | headStale
  | missingKnot
  | needleFault
  | missTrackFull
  | rowGap
  | rowPitch
  | haulSilent
  | haulReverse
  | cutterSilent
  | cutMismatch
  | cutUnexpected
  | queueFull
  | coilOverlength
  | misplacedStation
  | foreignMgmt
  | packOrder
  | mgmtOverrun
  deriving DecidableEq, Repr

/-- The frame kinds this manual names (R205), and one for every other kind value. -/
inductive FrameKind
  | poll
  | turns
  | haul
  | rowdone
  | setpt
  | halt
  | creep
  | go
  | cutreq
  | cutdone
  | mark
  | take
  | label
  | packed
  | alarm
  | mreq
  | mrep
  | nack
  | other
  deriving DecidableEq, Repr

/-- The line settings but for the own address (R195), which stands in `State.ownAddress`. -/
structure LineSettings where
  parityU : Bool
  parityD : Bool
  holdThreshold : Nat
  haulWatch : Nat
  cutWait : Nat
  creepHaul : Nat
  creepHead : Nat
  deriving DecidableEq, Repr

/-- A row of the station map (R176). -/
structure StationRow where
  role : Role
  unit : HeadUnit
  side : Port
  deriving DecidableEq, Repr

/-- A row of the product table (R195), its fields in the order of R207. -/
structure ProductRow where
  valid : Bool
  productId : Nat
  kind : ProductKind
  strandCount : Nat
  runTolerance : Nat
  threadTolerance : Nat
  breakFilter : Nat
  tensionFloor : Nat
  coilTarget : Nat
  cutLead : Nat
  overlengthLimit : Nat
  markInterval : Nat
  layWindow : Nat
  maxHaulSpeed : Nat
  maxHeadSpeed : Nat
  startStep : StepIndex
  rowPitch : Nat
  pitchTolerance : Nat
  needleLimit : Nat
  gradeB : Nat
  gradeC : Nat
  rejectAt : Nat
  deriving DecidableEq, Repr

/-- A row of the lay table (R195). -/
structure LayRow where
  inUse : Bool
  direction : Direction
  targetLay : Nat
  takeUp : Nat
  deriving DecidableEq, Repr

/-- A row of the mesh pattern table (R195); `next = none` is HOLD. -/
structure MeshRow where
  valid : Bool
  rows : Nat
  first : Nat
  last : Nat
  widenLeft : Int
  widenRight : Int
  taperEvery : Nat
  selvedgeWidth : Nat
  selvedgeCode : Nat
  next : Option StepIndex
  deriving DecidableEq, Repr

/-- The seven loaded tables (R195). Lists hold the rows in row order: 128 stations, 32 actions,
8 products, 192 lay rows (slot × 24 + unit), 64 mesh steps, 19 fault classes (kind − 1). -/
structure Tables where
  line : LineSettings
  stations : List StationRow
  actions : List Action
  products : List ProductRow
  lays : List LayRow
  mesh : List MeshRow
  faultClasses : List FaultClass
  deriving DecidableEq, Repr

/-- A one-shot tally counter with its recorded excess (R24). -/
structure OneShot where
  running : Bool
  current : Nat
  preset : Nat
  excess : Nat
  deriving DecidableEq, Repr

/-- A repeat tally counter with its skipped-period count (R24, R25). -/
structure Repeating where
  running : Bool
  current : Nat
  preset : Nat
  skipped : Nat
  deriving DecidableEq, Repr

/-- The length tally (R36). -/
structure Tally where
  haulTotal : Nat
  packedTotal : Nat
  coil : OneShot
  mark : Repeating
  window : Repeating
  windowLength : Nat
  haulwatch : OneShot
  cutwait : OneShot
  loaded : Bool
  haulTaken : Nat
  shortHaul : Nat
  clippedHaul : Nat
  deriving DecidableEq, Repr

/-- A head record (R38). -/
structure HeadRecord where
  state : HeadState
  windowSum : Int
  reports : Nat
  lastTension : Nat
  lowRun : Nat
  lastStrands : Nat
  lastLay : Nat
  lastDeviation : Nat
  driftWindows : Nat
  deriving DecidableEq, Repr

/-- The lay monitor: 24 head records and two counts (R59). -/
structure Lay where
  heads : List HeadRecord
  rejectedTurns : Nat
  ignoredTurns : Nat
  deriving DecidableEq, Repr

/-- An entry of the miss table (section 4.5). -/
structure MissEntry where
  position : Nat
  misses : Nat
  flagged : Bool
  deriving DecidableEq, Repr

/-- The pattern cursor (R62); `expected = none` is UNSYNCED. -/
structure Cursor where
  stepIndex : StepIndex
  rowsDone : Nat
  held : Bool
  bandFirst : Nat
  bandLast : Nat
  taperCount : Nat
  phase : Nat
  expected : Option Nat
  pitchRef : Option Nat
  deriving DecidableEq, Repr

/-- The seven counts of R82. -/
structure MeshCounts where
  rejectedRowdone : Nat
  ignoredRows : Nat
  duplicateRows : Nat
  strayPositions : Nat
  untrackedMisses : Nat
  refusedTapers : Nat
  refusedSteps : Nat
  deriving DecidableEq, Repr

/-- The mesh monitor (R83). -/
structure Mesh where
  active : Bool
  cursor : Cursor
  misses : List MissEntry
  counts : MeshCounts
  deriving DecidableEq, Repr

/-- A defect entry (R86). -/
structure Defect where
  kind : FaultKind
  offset : Nat
  source : Option Nat
  extent : Nat
  repeats : Nat
  points : Nat
  deriving DecidableEq, Repr

/-- A coil record (R84). `rows` is present when `net`; `grade` is absent until the close. -/
structure CoilRecord where
  number : Nat
  productId : Nat
  net : Bool
  state : CoilState
  length : Nat
  start : Nat
  rows : Nat
  worstDeviation : Nat
  driftWindows : Nat
  defects : List Defect
  overflow : Nat
  overflowPoints : Nat
  points : Nat
  grade : Option Grade
  cutLag : Nat
  overdue : Bool
  overlengthNoted : Bool
  deriving DecidableEq, Repr

/-- The coil job (R107, R120). -/
structure CoilJob where
  openCoil : CoilRecord
  queue : List CoilRecord
  counter : Nat
  current : Slot
  next : Option Slot
  pendingTake : Bool
  rejectedFrames : Nat
  marksMissed : Nat
  takeOverruns : Nat
  nacksNotSent : Nat
  refusedChangeovers : Nat
  deriving DecidableEq, Repr

/-- A fault record (R125), with the identity R129 speaks of. -/
structure FaultRecord where
  identity : Nat
  kind : FaultKind
  source : Option Nat
  classTaken : FaultClass
  count : Nat
  first : Nat
  last : Nat
  queued : Bool
  notified : Bool
  deriving DecidableEq, Repr

/-- Fault dispatch (R136); the class table is a loaded table. -/
structure FaultDispatch where
  list : List FaultRecord
  counters : List Nat
  overflow : Nat
  nextIdentity : Nat
  deriving DecidableEq, Repr

/-- What reaches fault dispatch (R121). -/
structure Occurrence where
  kind : FaultKind
  source : Option Nat
  count : Nat
  extent : Nat
  stamp : Nat
  deriving DecidableEq, Repr

/-- What the frame store keeps with an originated frame, apart from its characters (R129, R200, R202). -/
inductive InjMark
  | plain
  | alarm (identity : Nat)
  | newAddress (a : Addr)
  | resetReply
  deriving DecidableEq, Repr

/-- A frame of IQD or IQU (R162). -/
structure InjFrame where
  frame : Frame
  mark : InjMark
  deriving DecidableEq, Repr

/-- A frame of FQD or FQU with its recorded action and, for a downstream SETPT, its destination
role (R186); a broadcast has none. -/
structure FwdFrame where
  frame : Frame
  action : Action
  destRole : Option Role
  deriving DecidableEq, Repr

/-- What a transmitter's frame was taken from: a forwarding slot, an injection entry or the speed
latch (R148, R166, R167). -/
inductive Origin
  | forwarded
  | injected (mark : InjMark)
  | latch
  deriving DecidableEq, Repr

/-- A filled holding stage (R148): the frame, its origin, the parity setting it began with (R138),
and whether its slot, entry or latch command has been released within the departure in progress
(R168 step 1, R169 step 1; log 23). -/
structure Holding where
  frame : Frame
  origin : Origin
  parity : Bool
  released : Bool
  deriving DecidableEq, Repr

/-- A receiver (R142). In FILL it holds the characters stored in its slot, in position order; the
count stored and the expected total follow from them (log 10). -/
inductive Receiver
  | hunt
  | fill (stored : List Byte)
  | skip
  deriving DecidableEq, Repr

/-- The eight counters of a port (R153). -/
structure PortCounters where
  framesGood : Nat
  checkDrops : Nat
  charErrorDrops : Nat
  formatDrops : Nat
  truncatedDrops : Nat
  poolDrops : Nat
  charErrors : Nat
  framesSent : Nat
  deriving DecidableEq, Repr

/-- A port (R155): `transmitter = none` is IDLE with the holding stage empty. `holdIn` is the level
of the HOLD-IN line, asserted when true. -/
structure PortState where
  receiver : Receiver
  transmitter : Option Holding
  holdIn : Bool
  counters : PortCounters
  deriving DecidableEq, Repr

/-- The frame store (R175). `arriving` is the forwarding slot held by the classifier or a consuming
job within an arrival (R157); `reserved` is the IQU entry reserved for a reply (R163). -/
structure Store where
  fqd : List FwdFrame
  fqu : List FwdFrame
  iqd : List InjFrame
  iqu : List InjFrame
  latchPending : Option SpeedCommand
  latchInFlight : Option SpeedCommand
  hold : Option Frame
  arriving : Bool
  reserved : Bool
  deriving DecidableEq, Repr

/-- The eleven counts of R190. -/
structure ClassifierCounts where
  unknownSources : Nat
  unknownDestinations : Nat
  consumed : Nat
  unsupported : Nat
  unsupportedNacksNotSent : Nat
  blocked : Nat
  shortSetpoints : Nat
  haltedGos : Nat
  queueDrops : Nat
  clampedSetpoints : Nat
  zeroedSetpoints : Nat
  deriving DecidableEq, Repr

end Sys2Proof.Machine
end

