-- ==== Sys2Proof/Machine/Codes.lean ====
section
/-! DEFINITION. The codes of R204 to R206: enumerations, frame kinds, statuses, and the reading of a
received code. A code that names nothing reads as none. -/

namespace Sys2Proof.Machine

/-- R204. -/
def Mode.code : Mode → Nat
  | .parked => 0
  | .threading => 1
  | .run => 2
  | .creep => 3
  | .halted => 4

/-- R204. -/
def Mode.ofCode : Nat → Option Mode
  | 0 => some .parked
  | 1 => some .threading
  | 2 => some .run
  | 3 => some .creep
  | 4 => some .halted
  | _ => none

/-- R204. -/
def Role.code : Role → Nat
  | .unused => 0
  | .master => 1
  | .head => 2
  | .knotter => 3
  | .hauloff => 4
  | .cutter => 5
  | .packer => 6
  | .other => 7

/-- R204. -/
def Role.ofCode : Nat → Option Role
  | 0 => some .unused
  | 1 => some .master
  | 2 => some .head
  | 3 => some .knotter
  | 4 => some .hauloff
  | 5 => some .cutter
  | 6 => some .packer
  | 7 => some .other
  | _ => none

/-- R204: sides and ports. -/
def portCode : Port → Nat
  | .u => 0
  | .d => 1

/-- R204: sides and ports. -/
def portOfCode : Nat → Option Port
  | 0 => some .u
  | 1 => some .d
  | _ => none

/-- R204. -/
def Action.code : Action → Nat
  | .forward => 0
  | .clamp => 1
  | .block => 2

/-- R204. -/
def Action.ofCode : Nat → Option Action
  | 0 => some .forward
  | 1 => some .clamp
  | 2 => some .block
  | _ => none

/-- R204; R125: classes grow stronger in the order of their codes. -/
def FaultClass.code : FaultClass → Nat
  | .note => 0
  | .alarm => 1
  | .creep => 2
  | .halt => 3

/-- R204. -/
def FaultClass.ofCode : Nat → Option FaultClass
  | 0 => some .note
  | 1 => some .alarm
  | 2 => some .creep
  | 3 => some .halt
  | _ => none

/-- R204. -/
def ProductKind.code : ProductKind → Nat
  | .twineNet => 0
  | .rope => 1

/-- R204. -/
def ProductKind.ofCode : Nat → Option ProductKind
  | 0 => some .twineNet
  | 1 => some .rope
  | _ => none

/-- R204. -/
def Direction.code : Direction → Nat
  | .s => 0
  | .z => 1

/-- R204. -/
def Direction.ofCode : Nat → Option Direction
  | 0 => some .s
  | 1 => some .z
  | _ => none

/-- R204: yes/no, on/off, present/absent. -/
def boolCode (b : Bool) : Nat := if b then 1 else 0

/-- R204. -/
def boolOfCode : Nat → Option Bool
  | 0 => some false
  | 1 => some true
  | _ => none

/-- R204. -/
def HeadState.code : HeadState → Nat
  | .unused => 0
  | .settling => 1
  | .tracking => 2
  | .drift => 3
  | .stale => 4
  | .broken => 5

/-- R204. -/
def CoilState.code : CoilState → Nat
  | .opened => 0
  | .cutWaitRoom => 1
  | .cutWaitSend => 2
  | .cutting => 3
  | .closed => 4
  | .labelled => 5

/-- R204: an absent grade is 255. -/
def gradeCode : Option Grade → Nat
  | some .a => 0
  | some .b => 1
  | some .c => 2
  | some .reject => 3
  | none => 255

/-- R204. -/
def latchCode : Option SpeedCommand → Nat
  | none => 0
  | some .go => 1
  | some .creep => 2
  | some .halt => 3

/-- R204: HOLD is 64. -/
def meshNextCode : Option StepIndex → Nat
  | some i => i.val
  | none => 64

/-- R204: a slot of none is 255. -/
def slotCode : Option Slot → Nat
  | some i => i.val
  | none => 255

/-- R122: the number of a fault kind. -/
def FaultKind.number : FaultKind → Nat
  | .strandBreak => 1
  | .layDrift => 2
  | .headStale => 3
  | .missingKnot => 4
  | .needleFault => 5
  | .missTrackFull => 6
  | .rowGap => 7
  | .rowPitch => 8
  | .haulSilent => 9
  | .haulReverse => 10
  | .cutterSilent => 11
  | .cutMismatch => 12
  | .cutUnexpected => 13
  | .queueFull => 14
  | .coilOverlength => 15
  | .misplacedStation => 16
  | .foreignMgmt => 17
  | .packOrder => 18
  | .mgmtOverrun => 19

/-- R122: the kind a number names. -/
def FaultKind.ofNumber : Nat → Option FaultKind
  | 1 => some .strandBreak
  | 2 => some .layDrift
  | 3 => some .headStale
  | 4 => some .missingKnot
  | 5 => some .needleFault
  | 6 => some .missTrackFull
  | 7 => some .rowGap
  | 8 => some .rowPitch
  | 9 => some .haulSilent
  | 10 => some .haulReverse
  | 11 => some .cutterSilent
  | 12 => some .cutMismatch
  | 13 => some .cutUnexpected
  | 14 => some .queueFull
  | 15 => some .coilOverlength
  | 16 => some .misplacedStation
  | 17 => some .foreignMgmt
  | 18 => some .packOrder
  | 19 => some .mgmtOverrun
  | _ => none

/-- R122: the seven defect kinds. -/
def FaultKind.isDefect : FaultKind → Bool
  | .strandBreak => true
  | .layDrift => true
  | .headStale => true
  | .missingKnot => true
  | .needleFault => true
  | .rowGap => true
  | .rowPitch => true
  | _ => false

/-- R122: the kinds whose source is a coil number. -/
def FaultKind.sourceIsCoil : FaultKind → Bool
  | .cutterSilent => true
  | .cutMismatch => true
  | .cutUnexpected => true
  | .queueFull => true
  | .coilOverlength => true
  | .packOrder => true
  | _ => false

/-- R204: a source of none is 65,535. -/
def sourceCode : Option Nat → Nat
  | some n => n
  | none => 65535

/-- R204: 65,535 reads as none, except that it names coil 65,535 for a kind whose source is a coil. -/
def sourceOfCode (k : FaultKind) (n : Nat) : Option Nat :=
  if n = 65535 ∧ k.sourceIsCoil = false then none else some n

/-- R205: the code of a named frame kind; 0 stands for the kinds of the OTHER row, which the part
never builds. -/
def FrameKind.code : FrameKind → Byte
  | .poll => 1
  | .turns => 2
  | .haul => 3
  | .rowdone => 4
  | .setpt => 5
  | .halt => 6
  | .creep => 7
  | .go => 8
  | .cutreq => 9
  | .cutdone => 10
  | .mark => 11
  | .take => 12
  | .label => 13
  | .packed => 14
  | .alarm => 15
  | .mreq => 16
  | .mrep => 17
  | .nack => 18
  | .other => 0

/-- R205: the kind of a received code; 0 and 19..255 are other kinds. -/
def FrameKind.ofCode (b : Byte) : FrameKind :=
  match b.toNat with
  | 1 => .poll
  | 2 => .turns
  | 3 => .haul
  | 4 => .rowdone
  | 5 => .setpt
  | 6 => .halt
  | 7 => .creep
  | 8 => .go
  | 9 => .cutreq
  | 10 => .cutdone
  | 11 => .mark
  | 12 => .take
  | 13 => .label
  | 14 => .packed
  | 15 => .alarm
  | 16 => .mreq
  | 17 => .mrep
  | 18 => .nack
  | _ => .other

/-- R206: the kind row of the action table; HALT, CREEP and MREQ have none (R185). -/
def FrameKind.actionRow : FrameKind → Option Nat
  | .poll => some 0
  | .turns => some 1
  | .haul => some 2
  | .rowdone => some 3
  | .setpt => some 4
  | .go => some 5
  | .cutreq => some 6
  | .cutdone => some 7
  | .mark => some 8
  | .take => some 9
  | .label => some 10
  | .packed => some 11
  | .alarm => some 12
  | .mrep => some 13
  | .nack => some 14
  | .other => some 15
  | .halt => none
  | .creep => none
  | .mreq => none

/-- R165: the frame kind of a speed command. -/
def SpeedCommand.frameKind : SpeedCommand → FrameKind
  | .go => .go
  | .creep => .creep
  | .halt => .halt

/-- R204: NACK reasons. -/
def nackUnsupported : Byte := 1
/-- R204: NACK reasons. -/
def nackOutOfOrder : Byte := 2
/-- R204: NACK reasons. -/
def nackUnknownCoil : Byte := 3

/-- R206: status codes. -/
def statusOk : Byte := 0
/-- R206: status codes. -/
def statusBadRequest : Byte := 1
/-- R206: status codes. -/
def statusBadRow : Byte := 2
/-- R206: status codes. -/
def statusBadValue : Byte := 3
/-- R206: status codes. -/
def statusNotInMode : Byte := 4
/-- R206: status codes. -/
def statusBusy : Byte := 5
/-- R206: status codes. -/
def statusRefused : Byte := 6
/-- R206: status codes. -/
def statusInvalidTable : Byte := 7
/-- R206: status codes. -/
def statusNotFound : Byte := 8

/-- R204: REFUSED reasons. -/
def refusedFaultsPending : Byte := 1
/-- R204: REFUSED reasons. -/
def refusedHaltPending : Byte := 2

/-- R206: table codes. -/
def tableLine : Nat := 1
/-- R206: table codes. -/
def tableStations : Nat := 2
/-- R206: table codes. -/
def tableActions : Nat := 3
/-- R206: table codes. -/
def tableProducts : Nat := 4
/-- R206: table codes. -/
def tableLays : Nat := 5
/-- R206: table codes. -/
def tableMesh : Nat := 6
/-- R206: table codes. -/
def tableFaults : Nat := 7

end Sys2Proof.Machine
end

