-- ==== Sys2Proof/Machine/Flags.lean ====
section
/-! DEFINITION. Flag and count computations: saturating counts, parity and character errors, the
frame check, and the HOLD-OUT level. -/

namespace Sys2Proof.Machine

/-- A saturating sum: it stops at `cap`. -/
def satAdd (cap a b : Nat) : Nat := min (a + b) cap

/-- A 16-bit count increased by 1, saturating at 65,535. -/
def bump (n : Nat) : Nat := satAdd 65535 n 1

/-- The number of ones among the 8 data bits. -/
def onesOf (b : Byte) : Nat :=
  [0, 1, 2, 3, 4, 5, 6, 7].foldl (fun n i => n + (b.getLsbD i).toNat) 0

/-- R138: the parity bit that makes the number of ones among data bits, mark and parity bit even. -/
def evenParity (value : Byte) (mark : Bool) : Bool := (onesOf value + mark.toNat) % 2 == 1

/-- R139: a character error is a missing stop element, or a parity error while parity is on. -/
def isCharError (parityOn : Bool) (c : LineChar) : Bool :=
  !c.stop || (parityOn && (c.parity != evenParity c.value c.mark))

/-- R141: one bit taken into the check register. -/
def checkBit (reg : BitVec 16) (bit : Bool) : BitVec 16 :=
  if bit != reg.msb then (reg <<< 1) ^^^ 4129#16 else reg <<< 1

/-- R141: one character taken into the check register, its bits from the most significant. -/
def checkByte (reg : BitVec 16) (b : Byte) : BitVec 16 :=
  [7, 6, 5, 4, 3, 2, 1, 0].foldl (fun r i => checkBit r (b.getLsbD i)) reg

/-- R141: the check of the characters from the destination to the last payload character. -/
def frameCheck (l : List Byte) : BitVec 16 := l.foldl checkByte 65535#16

/-- R152: HOLD-OUT is asserted while the free forwarding slots are at or below the threshold. -/
def holdOutLevel (free threshold : Nat) : Bool := free ≤ threshold

end Sys2Proof.Machine
end

