-- ==== Sys2Proof/Machine/Operands.lean ====
section
/-! DEFINITION. Operand forms: numbers in payloads (R204), the characters of a frame (R140), and the
management requests with their parameters (R206, R207). -/

namespace Sys2Proof.Machine

/-- The unsigned number that characters spell, high character first (R204). -/
def numberOf (l : List Byte) : Nat := l.foldl (fun n b => n * 256 + b.toNat) 0

/-- The number in `width` characters from payload position `pos`, counted from 1 (R204). -/
def numberAt (payload : List Byte) (pos width : Nat) : Nat :=
  numberOf ((payload.drop (pos - 1)).take width)

/-- A number read as two's complement in `width` characters (R204). -/
def signedOf (width n : Nat) : Int :=
  if n < 2 ^ (8 * width - 1) then (n : Int) else (n : Int) - 2 ^ (8 * width)

/-- One character holding a number. -/
def enc1 (n : Nat) : List Byte := [BitVec.ofNat 8 n]

/-- A number in 2 characters, high character first (R204). -/
def enc2 (n : Nat) : List Byte := [BitVec.ofNat 8 (n / 256), BitVec.ofNat 8 n]

/-- A number in 4 characters, high character first (R204). -/
def enc4 (n : Nat) : List Byte :=
  [BitVec.ofNat 8 (n / 16777216), BitVec.ofNat 8 (n / 65536), BitVec.ofNat 8 (n / 256), BitVec.ofNat 8 n]

/-- A signed number in 4 characters, two's complement (R204). -/
def encSigned4 (i : Int) : List Byte := enc4 (i % 4294967296).toNat

/-- R140: the characters of a frame that enter its check: header, then payload. -/
def frameContents (f : Frame) : List Byte :=
  [f.dst.setWidth 8, f.src.setWidth 8, f.kind, BitVec.ofNat 8 f.payload.length] ++ f.payload

/-- R140, R141: all the characters of a frame in position order, the check last, high before low. -/
def frameCharacters (f : Frame) : List Byte :=
  frameContents f ++ enc2 (frameCheck (frameContents f)).toNat

/-- R140: the frame whose characters these are. -/
def frameOf (l : List Byte) : Frame :=
  { dst := (l.getD 0 0).setWidth 7, src := (l.getD 1 0).setWidth 7, kind := l.getD 2 0,
    payload := (l.drop 4).take (l.getD 3 0).toNat }

/-- R148: the characters the shifter sends for a holding stage: the first marked, the rest not, each
with the even parity bit (which the line carries when the holding stage's parity is on). -/
def Holding.lineChars (h : Holding) : List LineChar :=
  match frameCharacters h.frame with
  | [] => []
  | c :: rest =>
    let send (mark : Bool) (b : Byte) : LineChar :=
      { value := b, mark := mark, parity := h.parity && evenParity b mark, stop := true }
    send true c :: rest.map (send false)

/-- A management request with its parameters (R206). A page is the one of R207. -/
inductive Request
  | readRow (table : Byte) (row : BitVec 16) (page : Byte)
  | writeFields (table : Byte) (row : BitVec 16) (pairs : List (Byte × BitVec 32))
  | setMode (target : Byte)
  | setProduct (slot : Byte)
  | setNext (slot : Byte)
  | release
  | cut
  | clearFault (kind : Byte) (source : BitVec 16)
  | clearAll
  | readFaults (part : Byte) (index : Byte)
  | readCoil (record : Byte) (page : Byte)
  | readHead (unit : Byte)
  | readMesh (page : Byte)
  | readStatus (page : Byte)
  | readCounters (port : Byte)
  | clearCounters
  | setAddress (address : Byte)
  | reset
  deriving DecidableEq, Repr

/-- The (field number, value) pairs of WRITE_FIELDS, 5 characters each (R206). -/
def encodePairs (pairs : List (Byte × BitVec 32)) : List Byte :=
  pairs.flatMap (fun p => p.1 :: enc4 p.2.toNat)

/-- `n` pairs read from characters; none where there are fewer characters than the pairs need. -/
def parsePairs : Nat → List Byte → Option (List (Byte × BitVec 32))
  | 0, _ => some []
  | n + 1, f :: a :: b :: c :: d :: rest =>
    (parsePairs n rest).map (fun ps => (f, BitVec.ofNat 32 (numberOf [a, b, c, d])) :: ps)
  | _ + 1, _ => none

/-- R206: the payload of a request's MREQ: its code, then its parameters. -/
def Request.encode : Request → List Byte
  | .readRow t r p => [1, t] ++ enc2 r.toNat ++ [p]
  | .writeFields t r ps => [2, t] ++ enc2 r.toNat ++ enc1 ps.length ++ encodePairs ps
  | .setMode m => [3, m]
  | .setProduct s => [4, s]
  | .setNext s => [5, s]
  | .release => [6]
  | .cut => [7]
  | .clearFault k s => [8, k] ++ enc2 s.toNat
  | .clearAll => [9]
  | .readFaults p i => [10, p, i]
  | .readCoil r p => [11, r, p]
  | .readHead u => [12, u]
  | .readMesh p => [13, p]
  | .readStatus p => [14, p]
  | .readCounters p => [15, p]
  | .clearCounters => [16]
  | .setAddress a => [17, a]
  | .reset => [18]

/-- R193 step 2 for WRITE_FIELDS: a pair count of 0 or above 5, fewer characters than the pairs
need, or a field named twice is malformed. -/
def parseWriteFields (t a b count : Byte) (rest : List Byte) : Option Request :=
  if count.toNat = 0 ∨ 5 < count.toNat then none
  else
    match parsePairs count.toNat rest with
    | none => none
    | some ps =>
      if (ps.map Prod.fst).Nodup then some (.writeFields t (BitVec.ofNat 16 (numberOf [a, b])) ps) else none

/-- R193 steps 1 and 2, R206, R207: the request a payload carries, or none for BAD_REQUEST. A page
that the payload ends before is 0; characters beyond the parameters are disregarded. -/
def parseRequest (payload : List Byte) : Option Request :=
  match payload with
  | [] => none
  | code :: rest =>
    match code.toNat, rest with
    | 1, t :: a :: b :: more => some (.readRow t (BitVec.ofNat 16 (numberOf [a, b])) (more.headD 0))
    | 2, t :: a :: b :: count :: more => parseWriteFields t a b count more
    | 3, m :: _ => some (.setMode m)
    | 4, s :: _ => some (.setProduct s)
    | 5, s :: _ => some (.setNext s)
    | 6, _ => some .release
    | 7, _ => some .cut
    | 8, k :: a :: b :: _ => some (.clearFault k (BitVec.ofNat 16 (numberOf [a, b])))
    | 9, _ => some .clearAll
    | 10, p :: i :: _ => some (.readFaults p i)
    | 11, r :: p :: _ => some (.readCoil r p)
    | 12, u :: _ => some (.readHead u)
    | 13, more => some (.readMesh (more.headD 0))
    | 14, more => some (.readStatus (more.headD 0))
    | 15, p :: _ => some (.readCounters p)
    | 16, _ => some .clearCounters
    | 17, a :: _ => some (.setAddress a)
    | 18, _ => some .reset
    | _, _ => none

end Sys2Proof.Machine
end

