-- ==== Sys2Proof/Machine/Defaults.lean ====
section
/-! DEFINITION. The power-up contents of the loaded tables (R123, R176, R185, R195) and the cleared
value of each block's state (R36, R59, R83, R107, R136, R155, R175, R191). -/

namespace Sys2Proof.Machine

/-- R195: the line settings after power-up. -/
def LineSettings.powerUp : LineSettings :=
  { parityU := false, parityD := false, holdThreshold := 4, haulWatch := 500, cutWait := 2000,
    creepHaul := 20, creepHead := 300 }

/-- R176: a station map row after power-up. -/
def StationRow.powerUp : StationRow := { role := .unused, unit := 0, side := .u }

/-- R195: a product row after power-up. -/
def ProductRow.powerUp : ProductRow :=
  { valid := false, productId := 1, kind := .twineNet, strandCount := 1, runTolerance := 5,
    threadTolerance := 5, breakFilter := 1, tensionFloor := 0, coilTarget := 100, cutLead := 0,
    overlengthLimit := 0, markInterval := 0, layWindow := 50, maxHaulSpeed := 0, maxHeadSpeed := 0,
    startStep := 0, rowPitch := 0, pitchTolerance := 0, needleLimit := 2, gradeB := 0, gradeC := 0,
    rejectAt := 0 }

/-- R195: a lay row after power-up. -/
def LayRow.powerUp : LayRow := { inUse := false, direction := .s, targetLay := 1, takeUp := 1000 }

/-- R195: a mesh pattern row after power-up. -/
def MeshRow.powerUp : MeshRow :=
  { valid := false, rows := 1, first := 0, last := 0, widenLeft := 0, widenRight := 0,
    taperEvery := 1, selvedgeWidth := 0, selvedgeCode := 0, next := none }

/-- R122, R123: the default classes, in the order of the kinds. -/
def defaultFaultClasses : List FaultClass :=
  [.halt, .note, .alarm, .note, .creep, .alarm, .alarm, .note, .halt, .alarm, .alarm, .alarm, .note,
   .creep, .halt, .alarm, .alarm, .alarm, .note]

/-- R185: FORWARD everywhere but CLAMP in the downstream entry of SETPT (row 8, R206). -/
def defaultActions : List Action := (List.replicate 32 Action.forward).set 8 .clamp

/-- The power-up contents of all seven tables. -/
def Tables.powerUp : Tables :=
  { line := LineSettings.powerUp
    stations := List.replicate 128 StationRow.powerUp
    actions := defaultActions
    products := List.replicate 8 ProductRow.powerUp
    lays := List.replicate 192 LayRow.powerUp
    mesh := List.replicate 64 MeshRow.powerUp
    faultClasses := defaultFaultClasses }

/-- R36: a one-shot counter after a reset. -/
def OneShot.cleared : OneShot := { running := false, current := 0, preset := 0, excess := 0 }

/-- R36: a repeat counter after a reset. -/
def Repeating.cleared : Repeating := { running := false, current := 0, preset := 0, skipped := 0 }

/-- R36: the length tally after power-up and after a pin reset. R27, R32 and R33 list every reset among the events that
stop COIL, HAULWATCH and CUTWAIT keeping their values; the model takes the 0 of R36 (log 35). -/
def Tally.cleared : Tally :=
  { haulTotal := 0, packedTotal := 0, coil := OneShot.cleared, mark := Repeating.cleared,
    window := Repeating.cleared, windowLength := 0, haulwatch := OneShot.cleared,
    cutwait := OneShot.cleared, loaded := false, haulTaken := 0, shortHaul := 0, clippedHaul := 0 }

/-- R38, R59: a head record after a reset. -/
def HeadRecord.cleared : HeadRecord :=
  { state := .unused, windowSum := 0, reports := 0, lastTension := 0, lowRun := 0, lastStrands := 0,
    lastLay := 0, lastDeviation := 0, driftWindows := 0 }

/-- R59: the lay monitor after a reset. -/
def Lay.cleared : Lay :=
  { heads := List.replicate 24 HeadRecord.cleared, rejectedTurns := 0, ignoredTurns := 0 }

/-- R62: the cursor after a reset and in INACTIVE. -/
def Cursor.cleared : Cursor :=
  { stepIndex := 0, rowsDone := 0, held := false, bandFirst := 0, bandLast := 0, taperCount := 0,
    phase := 0, expected := none, pitchRef := none }

/-- R83: the mesh monitor's counts after a reset. -/
def MeshCounts.cleared : MeshCounts :=
  { rejectedRowdone := 0, ignoredRows := 0, duplicateRows := 0, strayPositions := 0,
    untrackedMisses := 0, refusedTapers := 0, refusedSteps := 0 }

/-- R83: the mesh monitor after a reset. -/
def Mesh.cleared : Mesh :=
  { active := false, cursor := Cursor.cleared, misses := [], counts := MeshCounts.cleared }

/-- R107: the open coil after power-up and after a pin reset. -/
def CoilRecord.first : CoilRecord :=
  { number := 1, productId := 0, net := false, state := .opened, length := 0, start := 0, rows := 0,
    worstDeviation := 0, driftWindows := 0, defects := [], overflow := 0, overflowPoints := 0,
    points := 0, grade := none, cutLag := 0, overdue := false, overlengthNoted := false }

/-- R107, R120: the coil job after power-up and after a pin reset. -/
def CoilJob.cleared : CoilJob :=
  { openCoil := CoilRecord.first, queue := [], counter := 1, current := 0, next := none,
    pendingTake := false, rejectedFrames := 0, marksMissed := 0, takeOverruns := 0,
    nacksNotSent := 0, refusedChangeovers := 0 }

/-- R136: fault dispatch after a reset. -/
def FaultDispatch.cleared : FaultDispatch :=
  { list := [], counters := List.replicate 19 0, overflow := 0, nextIdentity := 0 }

/-- R155: the counters of a port after a reset. -/
def PortCounters.cleared : PortCounters :=
  { framesGood := 0, checkDrops := 0, charErrorDrops := 0, formatDrops := 0, truncatedDrops := 0,
    poolDrops := 0, charErrors := 0, framesSent := 0 }

/-- R155: a port after a reset, its HOLD-IN line at the level the segment drives. -/
def PortState.cleared (holdIn : Bool) : PortState :=
  { receiver := .hunt, transmitter := none, holdIn := holdIn, counters := PortCounters.cleared }

/-- R175: the frame store after a reset. -/
def Store.cleared : Store :=
  { fqd := [], fqu := [], iqd := [], iqu := [], latchPending := none, latchInFlight := none,
    hold := none, arriving := false, reserved := false }

/-- R191: the classifier's counts after a reset. -/
def ClassifierCounts.cleared : ClassifierCounts :=
  { unknownSources := 0, unknownDestinations := 0, consumed := 0, unsupported := 0,
    unsupportedNacksNotSent := 0, blocked := 0, shortSetpoints := 0, haltedGos := 0, queueDrops := 0,
    clampedSetpoints := 0, zeroedSetpoints := 0 }

/-- R195, R203: the own address after power-up and after a pin reset. -/
def powerUpAddress : Addr := 120

end Sys2Proof.Machine
end

