-- ==== Sys2Proof/Machine/State.lean ====
section
/-! DEFINITION. The machine's state, the reasons a step can stop, and the state after reset. -/

namespace Sys2Proof.Machine

/-- The whole state of the LK36, its input pins, the counter of free values drawn and the queue of
waiting commands. -/
structure State where
  /-- R1. -/
  mode : Mode
  /-- R195, R201. -/
  ownAddress : Addr
  /-- R195: the seven loaded tables. -/
  tables : Tables
  /-- R36. -/
  tally : Tally
  /-- R59. -/
  lay : Lay
  /-- R83. -/
  mesh : Mesh
  /-- R107, R120. -/
  coil : CoilJob
  /-- R136. -/
  faults : FaultDispatch
  /-- R155: Port U. -/
  portU : PortState
  /-- R155: Port D. -/
  portD : PortState
  /-- R175. -/
  store : Store
  /-- R152: the level of both HOLD-OUT lines, asserted when true. -/
  holdOut : Bool
  /-- R190. -/
  classifier : ClassifierCounts
  /-- R203: the RESET input, asserted when true. -/
  resetIn : Bool
  /-- The model's own: how many free values have been drawn (log 7). -/
  freeDraws : Nat
  /-- The model's own: the commands waiting, first in, first out (log 1). -/
  pending : List Instr
  deriving DecidableEq, Repr

/-- No command of the table ends in a fault: a fault occurrence of the manual is state (R121). -/
inductive Fault
  deriving DecidableEq, Repr

/-- Why a command is refused. -/
inductive Refusal
  /-- Raised by an arm of exec for a command without a meaning; there is none. Safe. -/
  | notModelled (mnemonic : String)
  deriving DecidableEq, Repr

/-- The machine after power-up (R203 and the rules it gathers), with the RESET input released, both
HOLD-IN lines released (log 9) and nothing waiting. -/
def State.reset : State :=
  { mode := .parked
    ownAddress := powerUpAddress
    tables := Tables.powerUp
    tally := Tally.cleared
    lay := Lay.cleared
    mesh := Mesh.cleared
    coil := CoilJob.cleared
    faults := FaultDispatch.cleared
    portU := PortState.cleared false
    portD := PortState.cleared false
    store := Store.cleared
    holdOut := false
    classifier := ClassifierCounts.cleared
    resetIn := false
    freeDraws := 0
    pending := [] }

end Sys2Proof.Machine
end

