-- ==== Sys2Proof/Machine/Ops.lean ====
section
/-! DEFINITION. The named operations every block uses: ports, slots and entries of the frame store,
building and queuing frames, the speed latch, rows of the loaded tables, free values. -/

namespace Sys2Proof.Machine

/-! ## The part at work -/

/-- R203: while the RESET input is asserted the part holds its state; an event has its effect only
while the input is released. -/
def whenWorking (s : State) (f : State → State) : State := if s.resetIn then s else f s

/-! ## Ports -/

/-- The port of this name. -/
def State.port (s : State) : Port → PortState
  | .u => s.portU
  | .d => s.portD

/-- Puts a port's state in its place. -/
def State.setPort (s : State) : Port → PortState → State
  | .u, x => { s with portU := x }
  | .d, x => { s with portD := x }

/-- Changes a port's receiver. -/
def State.setReceiver (s : State) (p : Port) (r : Receiver) : State :=
  s.setPort p { s.port p with receiver := r }

/-- Changes a port's transmitter and holding stage. -/
def State.setTransmitter (s : State) (p : Port) (h : Option Holding) : State :=
  s.setPort p { s.port p with transmitter := h }

/-- Changes a port's counters (R153). -/
def State.countPort (s : State) (p : Port) (f : PortCounters → PortCounters) : State :=
  s.setPort p { s.port p with counters := f (s.port p).counters }

/-- R138: whether parity is on for a port. -/
def State.parityOn (s : State) : Port → Bool
  | .u => s.tables.line.parityU
  | .d => s.tables.line.parityD

/-! ## Forwarding slots (R157, R158) -/

/-- The forwarding slot a receiver holds: one in FILL. -/
def Receiver.slots : Receiver → Nat
  | .fill _ => 1
  | .hunt => 0
  | .skip => 0

/-- The forwarding slot a transmitter holds: one for a forwarded frame not yet released. -/
def transmitterSlots : Option Holding → Nat
  | some h => if h.origin = .forwarded ∧ h.released = false then 1 else 0
  | none => 0

/-- R157: the forwarding slots held. -/
def State.heldForwarding (s : State) : Nat :=
  s.portU.receiver.slots + s.portD.receiver.slots + s.store.fqd.length + s.store.fqu.length
    + s.store.hold.toList.length + transmitterSlots s.portU.transmitter
    + transmitterSlots s.portD.transmitter + s.store.arriving.toNat

/-- R152: the free forwarding slots, of the 24. -/
def State.freeForwarding (s : State) : Nat := 24 - s.heldForwarding

/-- R152: sets the HOLD-OUT level anew. -/
def State.setHoldOut (s : State) : State :=
  { s with holdOut := holdOutLevel s.freeForwarding s.tables.line.holdThreshold }

/-! ## Injection entries (R159, R162, R163) -/

/-- The injection entry a transmitter holds. -/
def transmitterEntries : Option Holding → Nat
  | some { origin := .injected _, released := false, .. } => 1
  | _ => 0

/-- R159: the entries of the IQD group held. -/
def State.iqdHeld (s : State) : Nat := s.store.iqd.length + transmitterEntries s.portD.transmitter

/-- R159, R163: the entries of the IQU group held, a reserved one included. -/
def State.iquHeld (s : State) : Nat :=
  s.store.iqu.length + transmitterEntries s.portU.transmitter + s.store.reserved.toNat

/-- R159: an IQD entry would be granted. -/
def State.iqdRoom (s : State) : Bool := s.iqdHeld < 4

/-- R159: an IQU entry would be granted. -/
def State.iquRoom (s : State) : Bool := s.iquHeld < 4

/-- R162: an originated frame, its source the own address as it stands. -/
def State.originate (s : State) (dst : Addr) (kind : FrameKind) (payload : List Byte) : Frame :=
  { dst := dst, src := s.ownAddress, kind := kind.code, payload := payload }

/-- R162: queues a frame at the end of IQD. -/
def State.queueIqd (s : State) (f : Frame) : State :=
  { s with store.iqd := s.store.iqd ++ [{ frame := f, mark := .plain }] }

/-- R162: queues a frame at the end of IQU with what the store keeps beside it. -/
def State.queueIqu (s : State) (f : Frame) (m : InjMark) : State :=
  { s with store.iqu := s.store.iqu ++ [{ frame := f, mark := m }] }

/-- R159: an entry of the injection queue toward a port would be granted. -/
def State.injectionRoom (s : State) : Port → Bool
  | .u => s.iquRoom
  | .d => s.iqdRoom

/-- R162: queues a frame at the end of the injection queue toward a port. -/
def State.queueToward (s : State) : Port → Frame → State
  | .u, f => s.queueIqu f .plain
  | .d, f => s.queueIqd f

/-! ## Counts of an arrival (R153, R190) -/

/-- R153: the state with one more good frame counted on a port. -/
def State.frameCounted (s : State) (p : Port) : State :=
  s.countPort p (fun c => { c with framesGood := bump c.framesGood })

/-- R190: changes the classifier's counts. -/
def State.countClassifier (s : State) (f : ClassifierCounts → ClassifierCounts) : State :=
  { s with classifier := f s.classifier }

/-- R190: a consumed frame counted. -/
def countConsumed (s : State) : State := s.countClassifier (fun c => { c with consumed := bump c.consumed })

/-- R153, R180: the state with one more good frame counted on a port and consumed. -/
def State.frameConsumed (s : State) (p : Port) : State := countConsumed (s.frameCounted p)

/-! ## The speed latch (R16, R164) -/

/-- R164: a setting of the latch. GO or CREEP onto a pending HALT is absorbed. -/
def State.setLatch (s : State) (c : SpeedCommand) : State :=
  if s.store.latchPending = some .halt then s else { s with store.latchPending := some c }

/-- R164: the latch holds HALT while the pending command or the command in flight is HALT. -/
def State.latchHoldsHalt (s : State) : Bool :=
  s.store.latchPending == some .halt || s.store.latchInFlight == some .halt

/-! ## Rows of the loaded tables -/

/-- The station map row of an address (R176). -/
def Tables.station (t : Tables) (a : Nat) : StationRow := t.stations.getD a StationRow.powerUp

/-- The station map row of an address. -/
def State.stationOf (s : State) (a : Addr) : StationRow := s.tables.station a.toNat

/-- A product row. -/
def Tables.product (t : Tables) (slot : Slot) : ProductRow := t.products.getD slot.val ProductRow.powerUp

/-- A lay row: slot × 24 + unit (R195). -/
def Tables.layRow (t : Tables) (slot : Slot) (unit : HeadUnit) : LayRow :=
  t.lays.getD (slot.val * 24 + unit.val) LayRow.powerUp

/-- A mesh pattern row. -/
def Tables.meshRow (t : Tables) (i : StepIndex) : MeshRow := t.mesh.getD i.val MeshRow.powerUp

/-- The class of a fault kind (R123). -/
def Tables.faultClass (t : Tables) (k : FaultKind) : FaultClass := t.faultClasses.getD (k.number - 1) .note

/-- The action table entry of a kind row and a direction (R185, R206). -/
def Tables.action (t : Tables) (kindRow : Nat) (toward : Port) : Action :=
  t.actions.getD (2 * kindRow + (match toward with | .d => 0 | .u => 1)) .forward

/-- The row of the current product (R108, R109). -/
def State.product (s : State) : ProductRow := s.tables.product s.coil.current

/-- The lay row of a unit in the current product. -/
def State.layRow (s : State) (unit : HeadUnit) : LayRow := s.tables.layRow s.coil.current unit

/-- R177: the lowest address whose row has this role. -/
def Tables.lowestWithRole (t : Tables) (r : Role) : Option Nat :=
  t.stations.findIdx? (fun row => row.role = r)

/-- R177: the destination for a role: its lowest address, or `absent` when no row has it. -/
def Tables.addressOf (t : Tables) (r : Role) (absent : Addr) : Addr :=
  match t.lowestWithRole r with
  | some a => BitVec.ofNat 7 a
  | none => absent

/-! ## Free values -/

/-- One free value has been drawn: the next one is another. -/
def State.drawn (s : State) : State := { s with freeDraws := s.freeDraws + 1 }

end Sys2Proof.Machine
end

