-- ==== Sys2Proof/Machine/Counters.lean ====
section
/-! DEFINITION. The tally counters' own operations: presets, stops, and the arithmetic of an underflow
(R24 to R34). What an underflow is handed to stands in Tally.lean. -/

namespace Sys2Proof.Machine

/-- R24, R31: a time counter preset and started. -/
def OneShot.start (p : Nat) : OneShot := { running := true, current := p, preset := p, excess := 0 }

/-- R26: a counter preset at 0 or less: it stands underflowed, the shortfall its recorded excess. -/
def OneShot.exhausted (excess : Nat) : OneShot :=
  { running := false, current := 0, preset := 0, excess := excess }

/-- R24: a counter stopped, keeping its current value. -/
def OneShot.stop (c : OneShot) : OneShot := { c with running := false }

/-- R25, R31: a one-shot counter after its underflow. -/
def OneShot.underflow (c : OneShot) (excess : Nat) : OneShot :=
  { c with running := false, current := 0, excess := excess }

/-- R24: a repeat counter preset and started. -/
def Repeating.start (c : Repeating) (p : Nat) : Repeating :=
  { c with running := true, current := p, preset := p }

/-- R25: whether a running length counter given an amount underflows. -/
def underflowsAt (running : Bool) (current amount : Nat) : Bool := running && current ≤ amount

/-- R25: a repeat counter after an underflow with this excess: the further crossings are folded. -/
def Repeating.reload (c : Repeating) (excess : Nat) : Repeating :=
  { c with current := c.preset - excess % c.preset, skipped := satAdd 65535 c.skipped (excess / c.preset) }

/-- R26, R27: COIL is preset from the current product and the open coil's length. -/
def presetCoil (s : State) : State :=
  let taken := s.product.cutLead + s.coil.openCoil.length
  { s with tally.coil :=
      if taken < s.product.coilTarget then OneShot.start (s.product.coilTarget - taken)
      else OneShot.exhausted (taken - s.product.coilTarget) }

/-- R28: MARK is preset from the current product; with a mark interval of 0 it is not started, and
stopped if it was running, its values left as they stand. -/
def presetMark (s : State) : State :=
  { s with tally.mark :=
      if s.product.markInterval = 0 then { s.tally.mark with running := false }
      else s.tally.mark.start s.product.markInterval }

/-- R29: WINDOW is preset from the current product, its window length cleared (R24). -/
def presetWindow (s : State) : State :=
  { s with tally.window := s.tally.window.start s.product.layWindow, tally.windowLength := 0 }

/-- R30: COIL, MARK and WINDOW preset and the tally-loaded flag set. -/
def presetAll (s : State) : State :=
  { presetWindow (presetMark (presetCoil s)) with tally.loaded := true }

/-- R32: HAULWATCH preset and started. -/
def presetHaulwatch (s : State) : State :=
  { s with tally.haulwatch := OneShot.start s.tables.line.haulWatch }

/-- R33: CUTWAIT preset and started. -/
def presetCutwait (s : State) : State :=
  { s with tally.cutwait := OneShot.start s.tables.line.cutWait }

/-- R33: CUTWAIT stopped, keeping its value. -/
def stopCutwait (s : State) : State := { s with tally.cutwait := s.tally.cutwait.stop }

/-- R27: COIL stopped, keeping its value. -/
def stopCoil (s : State) : State := { s with tally.coil := s.tally.coil.stop }

end Sys2Proof.Machine
end

