-- ==== Sys2Proof/Machine/Dispatcher.lean ====
section
/-! DEFINITION. Fault dispatch (R121 to R130), with the two operations it works on: the open coil's
defect list (R86 to R88) and the mode requests (R12, R13). -/

namespace Sys2Proof.Machine

/-! ## Defects (R86 to R88) -/

/-- R88: the points of a defect occurrence by kind and count. -/
def defectPoints (k : FaultKind) (count : Nat) : Nat :=
  match k with
  | .layDrift => 2
  | .strandBreak => 20
  | .headStale => 1
  | .missingKnot => count
  | .needleFault => 10
  | .rowGap => 3 * count
  | .rowPitch => 1
  | _ => 0

/-- R87: a merge of an occurrence with offset `o`, extent `x` and points into an entry. -/
def Defect.merge (e : Defect) (o x points : Nat) : Defect :=
  { e with
    offset := min e.offset o
    extent := max (e.offset + e.extent) (o + x) - min e.offset o
    repeats := bump e.repeats
    points := satAdd 4294967295 e.points points }

/-- Changes the first entry that meets a condition. -/
def updateFirst (p : Defect → Bool) (f : Defect → Defect) : List Defect → List Defect
  | [] => []
  | e :: rest => if p e then f e :: rest else e :: updateFirst p f rest

/-- Changes the newest entry (the last made) that meets a condition. -/
def updateNewest (p : Defect → Bool) (f : Defect → Defect) (l : List Defect) : List Defect :=
  (updateFirst p f l.reverse).reverse

/-- R87: the newest entry of a kind and source. -/
def newestDefect (l : List Defect) (k : FaultKind) (src : Option Nat) : Option Defect :=
  l.reverse.find? (fun e => e.kind = k ∧ e.source = src)

/-- R87: whether an occurrence at offset `o` merges into the newest entry of its kind and source. -/
def mergesInto (newest : Option Defect) (o : Nat) : Bool :=
  match newest with
  | some e => o ≤ e.offset + e.extent + 100
  | none => false

/-- R87, R88: a defect added to a coil record: merged, appended, or counted as overflow. -/
def CoilRecord.addDefect (c : CoilRecord) (k : FaultKind) (src : Option Nat) (o x points : Nat) : CoilRecord :=
  let c' := { c with points := satAdd 4294967295 c.points points }
  if mergesInto (newestDefect c.defects k src) o then
    { c' with defects := updateNewest (fun e => e.kind = k ∧ e.source = src) (fun e => e.merge o x points) c.defects }
  else if c.defects.length < 24 then
    { c' with
      defects := c.defects ++
        [{ kind := k, offset := o, source := src, extent := x, repeats := 1, points := points }] }
  else
    { c' with overflow := bump c.overflow, overflowPoints := satAdd 4294967295 c.overflowPoints points }

/-- R86: an occurrence of a defect kind added to the record open now, at the offset of its stamp. -/
def addDefect (o : Occurrence) (s : State) : State :=
  let c := s.coil.openCoil
  let c' := c.addDefect o.kind o.source (o.stamp - c.start) o.extent (defectPoints o.kind o.count)
  { s with coil.openCoil := c' }

/-! ## Mode requests (R12, R13) -/

/-- Stops HAULWATCH, keeping its value (R32). -/
def stopHaulwatch (s : State) : State := { s with tally.haulwatch.running := false }

/-- R12: a CREEP request. -/
def creepRequest (s : State) : State :=
  match s.mode with
  | .run => { s with mode := .creep }.setLatch .creep
  | .creep => s
  | .threading => s
  | .halted => s
  | .parked => s

/-- R13: a HALT request. -/
def haltRequest (s : State) : State :=
  match s.mode with
  | .threading => stopHaulwatch ({ s with mode := .halted }.setLatch .halt)
  | .run => stopHaulwatch ({ s with mode := .halted }.setLatch .halt)
  | .creep => stopHaulwatch ({ s with mode := .halted }.setLatch .halt)
  | .halted => s.setLatch .halt
  | .parked => s.setLatch .halt

/-- R124 step 6: the mode request of a class. -/
def modeRequest (c : FaultClass) (s : State) : State :=
  match c with
  | .note => s
  | .alarm => s
  | .creep => creepRequest s
  | .halt => haltRequest s

/-! ## ALARMs (R128 to R130) -/

/-- R128, R205: the payload of a record's ALARM. -/
def alarmPayload (r : FaultRecord) : List Byte :=
  enc1 r.kind.number ++ enc2 (sourceCode r.source) ++ enc1 r.classTaken.code ++ enc4 r.first

/-- Changes the record of an identity. -/
def updateRecord (identity : Nat) (f : FaultRecord → FaultRecord) (l : List FaultRecord) : List FaultRecord :=
  l.map (fun r => if r.identity = identity then f r else r)

/-- R128, R129: queues the ALARM of a record and sets the record's queued flag. -/
def queueAlarm (s : State) (r : FaultRecord) : State :=
  { s.queueIqu (s.originate (s.tables.addressOf .master 0) .alarm (alarmPayload r)) (.alarm r.identity) with
    faults.list := updateRecord r.identity (fun x => { x with queued := true }) s.faults.list }

/-- R130: a record waits for its ALARM while its notified and queued flags are both clear. -/
def FaultRecord.waits (r : FaultRecord) : Bool := !r.notified && !r.queued

/-- R130: the ALARM of one record is queued if the record waits and IQU has room. Once IQU is full
it stays full within the examination, so the first refusal ends it. -/
def sendIfRoom (s : State) (r : FaultRecord) : State :=
  if r.waits && s.iquRoom then queueAlarm s r else s

/-- R130: the ALARM sending examination, oldest record first. -/
def sendAlarms (s : State) : State := s.faults.list.foldl sendIfRoom s

/-- R129: at the departure of an ALARM the record it was built for, if still in the list, is marked. -/
def markNotified (identity : Nat) (s : State) : State :=
  { s with faults.list :=
      updateRecord identity (fun r => { r with queued := false, notified := true }) s.faults.list }

/-! ## Occurrences (R121 to R127) -/

/-- An occurrence raised now: its stamp is the haul total (R35). -/
def occurrence (s : State) (k : FaultKind) (src : Option Nat) (count extent : Nat) : Occurrence :=
  { kind := k, source := src, count := count, extent := extent, stamp := s.tally.haulTotal }

/-- R124 step 1. -/
def countOccurrence (k : FaultKind) (s : State) : State :=
  { s with faults.counters := s.faults.counters.modify (k.number - 1) bump }

/-- R125: the stronger of two classes. -/
def FaultClass.stronger (a b : FaultClass) : FaultClass := if a.code < b.code then b else a

/-- R126: an occurrence coalesced into the record of its kind and source. -/
def FaultRecord.coalesce (r : FaultRecord) (o : Occurrence) (c : FaultClass) : FaultRecord :=
  { r with count := bump r.count, last := o.stamp, classTaken := r.classTaken.stronger c }

/-- R126: whether a record is of a kind and source. -/
def FaultRecord.isOf (r : FaultRecord) (k : FaultKind) (src : Option Nat) : Bool :=
  r.kind = k ∧ r.source = src

/-- R126: the record a new occurrence makes. -/
def newRecord (identity : Nat) (o : Occurrence) (c : FaultClass) : FaultRecord :=
  { identity := identity, kind := o.kind, source := o.source, classTaken := c, count := 1,
    first := o.stamp, last := o.stamp, queued := false, notified := false }

/-- R124 steps 4 and 5, R126, R127: an occurrence entered in the fault list, or counted as overflow;
a new record is followed by the sending examination. -/
def enterOccurrence (o : Occurrence) (c : FaultClass) (s : State) : State :=
  if s.faults.list.any (fun r => r.isOf o.kind o.source) then
    { s with faults.list :=
        s.faults.list.map (fun r => if r.isOf o.kind o.source then r.coalesce o c else r) }
  else if s.faults.list.length < 16 then
    sendAlarms { s with
      faults.list := s.faults.list ++ [newRecord s.faults.nextIdentity o c]
      faults.nextIdentity := s.faults.nextIdentity + 1 }
  else { s with faults.overflow := bump s.faults.overflow }

/-- R124 step 2: the defect of an occurrence of a defect kind. -/
def handDefect (o : Occurrence) (s : State) : State := if o.kind.isDefect then addDefect o s else s

/-- R124: fault dispatch handles one occurrence whole. -/
def handle (o : Occurrence) (s : State) : State :=
  let s := handDefect o (countOccurrence o.kind s)
  let c := s.tables.faultClass o.kind
  if c = .note then s else modeRequest c (enterOccurrence o c s)

/-- Raises an occurrence now and hands it to fault dispatch. -/
def raise (k : FaultKind) (src : Option Nat) (count extent : Nat) (s : State) : State :=
  handle (occurrence s k src count extent) s

/-- Hands noted occurrences on in order, each handled whole before the next (R121). -/
def handleAll (l : List Occurrence) (s : State) : State := l.foldl (fun s o => handle o s) s

/-! ## The CREEP exit examination (R14) -/

/-- R14: whether the fault list holds a record whose class taken is this. -/
def State.hasRecordOfClass (s : State) (c : FaultClass) : Bool :=
  s.faults.list.any (fun r => r.classTaken = c)

/-- R14: in CREEP, with no CREEP-class record and the open coil not waiting for room, the mode
becomes RUN and GO is latched. -/
def creepExit (s : State) : State :=
  if s.mode = .creep ∧ s.hasRecordOfClass .creep = false ∧ s.coil.openCoil.state ≠ .cutWaitRoom then
    { s with mode := .run }.setLatch .go
  else s

end Sys2Proof.Machine
end

