-- ==== Sys2Proof/Machine/Coil.lean ====
section
/-! DEFINITION. The coil job: overlength, the cut request, marks, labels and packing (R90 to R104). The
closing CUTDONE and the coil open stand in Product.lean. -/

namespace Sys2Proof.Machine

/-! ## Overlength and the cut request (R91 to R96) -/

/-- R91: whether the overlength examination finds overlength. -/
def State.overlength (s : State) : Bool :=
  s.coil.openCoil.state ≠ .cutting && !s.coil.openCoil.overlengthNoted
    && s.product.coilTarget + s.product.overlengthLimit < s.coil.openCoil.length

/-- R91: the overlength examination. -/
def examineOverlength (s : State) : State :=
  if s.overlength then
    raise .coilOverlength (some s.coil.openCoil.number) 1 0 { s with coil.openCoil.overlengthNoted := true }
  else s

/-- Puts the open coil in a state. -/
def setOpenState (st : CoilState) (s : State) : State := { s with coil.openCoil.state := st }

/-- R94 step 3: CUTREQ is queued for the station mapped CUTTER and the coil becomes CUTTING. -/
def sendCutreq (s : State) : State :=
  setOpenState .cutting
    (s.queueIqd (s.originate (s.tables.addressOf .cutter 127) .cutreq (enc2 s.coil.openCoil.number)))

/-- R94 steps 2 and 3, R95: with room in the coil queue, the coil waits for IQD or is cut. -/
def cutWithRoom (s : State) : State := if s.iqdRoom then sendCutreq s else setOpenState .cutWaitSend s

/-- R94: the cut request. -/
def cutRequest (s : State) : State :=
  if 16 ≤ s.coil.queue.length then
    raise .queueFull (some s.coil.openCoil.number) 1 0 (setOpenState .cutWaitRoom s)
  else cutWithRoom s

/-- R92: a COIL underflow handed on with its cut lag. -/
def coilUnderflowed (lag : Nat) (s : State) : State :=
  if s.coil.openCoil.state = .opened then cutRequest { s with coil.openCoil.cutLag := lag } else s

/-- R26, R99 step 7, R111 step 6: a COIL preset of 0 or less is handed on after the event's presets.
Right after a preset the preset value is 0 exactly when the computed value was 0 or less. -/
def handImmediate (s : State) : State :=
  if s.tally.coil.preset = 0 then coilUnderflowed s.tally.coil.excess s else s

/-- R93: whether a manual CUT is accepted. -/
def State.mayCut (s : State) : Bool := s.coil.openCoil.state = .opened && 0 < s.coil.openCoil.length

/-- R93: an accepted manual CUT. -/
def manualCut (s : State) : State := cutRequest { stopCoil s with coil.openCoil.cutLag := 0 }

/-! ## Labels and the pending TAKE (R102, R103) -/

/-- R102: the oldest CLOSED record in the coil queue. -/
def oldestClosed (q : List CoilRecord) : Option CoilRecord := q.find? (fun r => r.state = .closed)

/-- R104: the oldest LABELLED record in the coil queue. -/
def oldestLabelled (q : List CoilRecord) : Option CoilRecord := q.find? (fun r => r.state = .labelled)

/-- R102, R205: the payload of a LABEL. -/
def labelPayload : Option CoilRecord → List Byte
  | none => [0]
  | some r =>
    enc1 (if r.net then 3 else 1) ++ enc2 r.number ++ enc2 r.productId ++ enc4 r.length
      ++ enc1 (gradeCode r.grade) ++ enc4 r.points ++ enc1 (boolCode r.overdue)
      ++ enc1 r.defects.length ++ enc2 r.overflow ++ enc2 r.worstDeviation
      ++ (if r.net then enc2 r.rows else [])

/-- R102: the oldest CLOSED record becomes LABELLED. -/
def labelOldest : List CoilRecord → List CoilRecord
  | [] => []
  | r :: rest => if r.state = .closed then { r with state := .labelled } :: rest else r :: labelOldest rest

/-- R102: a LABEL is queued for the oldest CLOSED record, or for no coil ready. -/
def sendLabel (s : State) : State :=
  { s.queueIqd (s.originate (s.tables.addressOf .packer 127) .label (labelPayload (oldestClosed s.coil.queue))) with
    coil.queue := labelOldest s.coil.queue }

/-- R103: the pending TAKE is served when IQD has room. -/
def servePending (s : State) : State :=
  if s.coil.pendingTake && s.iqdRoom then sendLabel { s with coil.pendingTake := false } else s

/-- R102: a TAKE. -/
def takeReceived (s : State) : State :=
  if s.coil.pendingTake then { s with coil.takeOverruns := bump s.coil.takeOverruns }
  else if s.iqdRoom then sendLabel s
  else { s with coil.pendingTake := true }

/-- R96: the coil job at the report of an IQD departure. The departure freed an entry, so the CUTREQ
of a coil in CUT_WAIT_SEND is granted it (log 31). -/
def iqdDeparted (s : State) : State :=
  servePending (if s.coil.openCoil.state = .cutWaitSend && s.iqdRoom then sendCutreq s else s)

/-! ## Marks (R101) -/

/-- R101: a MARK underflow handed on with its mark length and skipped periods. -/
def markUnderflowed (markLength skipped : Nat) (s : State) : State :=
  if s.iqdRoom then
    { s.queueIqd (s.originate (s.tables.addressOf .cutter 127) .mark
        (enc2 s.coil.openCoil.number ++ enc4 markLength)) with
      coil.marksMissed := satAdd 65535 s.coil.marksMissed skipped }
  else { s with coil.marksMissed := satAdd 65535 s.coil.marksMissed (skipped + 1) }

/-! ## Packing (R95, R104) -/

/-- R95: a coil in CUT_WAIT_ROOM goes on with its cut request, and the CREEP exit examination runs. -/
def roomMade (s : State) : State :=
  if s.coil.openCoil.state = .cutWaitRoom then creepExit (cutWithRoom s) else s

/-- Removes the record of a coil number. -/
def removeCoil (n : Nat) : List CoilRecord → List CoilRecord
  | [] => []
  | r :: rest => if r.number = n then rest else r :: removeCoil n rest

/-- R104, R106: the NACK of a refused PACKED, queued on IQD when IQD has room, else not sent and counted, whichever
side its source is mapped on: 9.3 leaves the queue of a sender's frames to the sender's chapter, here R104, and the
sentence of R162 on NACKs is read as that of the classifier's (log 13). -/
def nackPacked (src : Addr) (reason : Byte) (s : State) : State :=
  if s.iqdRoom then s.queueIqd (s.originate src .nack [FrameKind.packed.code, reason])
  else { s with coil.nacksNotSent := bump s.coil.nacksNotSent }

/-- R104: the oldest LABELLED record is removed and its length packed. -/
def packOldest (r : CoilRecord) (s : State) : State :=
  roomMade { s with
    coil.queue := removeCoil r.number s.coil.queue
    tally.packedTotal := s.tally.packedTotal + r.length }

/-- R104: a PACKED naming coil `n`. -/
def packedNamed (src : Addr) (n : Nat) (s : State) : State :=
  match s.coil.queue.find? (fun r => r.number = n) with
  | none => nackPacked src nackUnknownCoil s
  | some r =>
    if (oldestLabelled s.coil.queue).map CoilRecord.number = some n then packOldest r s
    else raise .packOrder (some n) 1 0 (nackPacked src nackOutOfOrder s)

/-- R104: a PACKED from this source. -/
def packedReceived (src : Addr) (payload : List Byte) (s : State) : State :=
  if payload.length < 2 then { s with coil.rejectedFrames := bump s.coil.rejectedFrames }
  else packedNamed src (numberAt payload 1 2) s

/-! ## Length and rows (R90) and the CUTWAIT expiry (R100) -/

/-- R90, R91: an applied positive amount added to the open coil, and the overlength examination. -/
def addLength (n : Nat) (s : State) : State :=
  examineOverlength { s with coil.openCoil.length := s.coil.openCoil.length + n }

/-- R90: one knot row counted into the open coil when its net is yes. -/
def addRow (s : State) : State :=
  if s.coil.openCoil.net then { s with coil.openCoil.rows := bump s.coil.openCoil.rows } else s

/-- R100: a CUTWAIT expiry handed on. -/
def cutwaitExpired (s : State) : State :=
  let s := examineOverlength { setOpenState .opened s with coil.openCoil.overdue := true }
  raise .cutterSilent (some s.coil.openCoil.number) 1 0 s

/-! ## Commands -/

/-- TAKE (R102). -/
def execTake (_payload : List Byte) (s : State) : Host.Outcome State Fault Refusal :=
  .next (whenWorking s takeReceived)

/-- PACKED (R104). -/
def execPacked (src : Addr) (payload : List Byte) (s : State) : Host.Outcome State Fault Refusal :=
  .next (whenWorking s (packedReceived src payload))

end Sys2Proof.Machine
end

