-- ==== Sys2Proof/Machine/Lay.lean ====
section
/-! DEFINITION. The lay monitor (R38 to R59): head records, TURNS reports, window ends, and the head
states set at mode changes and product starts. -/

namespace Sys2Proof.Machine

/-! ## Head records -/

/-- The record of a head unit (R38). -/
def State.head (s : State) (u : HeadUnit) : HeadRecord := s.lay.heads.getD u.val HeadRecord.cleared

/-- Puts a head record in its place. -/
def setHead (u : HeadUnit) (h : HeadRecord) (s : State) : State :=
  { s with lay.heads := s.lay.heads.set u.val h }

/-- The 24 units in ascending order. -/
def allUnits : List HeadUnit := List.finRange 24

/-- Every head record rewritten from its unit and its value, in ascending unit. -/
def mapHeads (f : HeadUnit → HeadRecord → HeadRecord) (s : State) : State :=
  { s with lay.heads := allUnits.map (fun u => f u (s.head u)) }

/-- R40: a head that becomes SETTLING or UNUSED. -/
def HeadRecord.restart (h : HeadRecord) (st : HeadState) : HeadRecord :=
  { h with state := st, windowSum := 0, reports := 0, lowRun := 0 }

/-- R8, R53: SETTLING for a head in use, UNUSED for another (R40 applied). -/
def HeadRecord.restartBy (h : HeadRecord) (inUse : Bool) : HeadRecord :=
  h.restart (if inUse then .settling else .unused)

/-- R8, R53: the heads at entry to THREADING from PARKED. -/
def enterThreadingHeads (s : State) : State :=
  mapHeads (fun u h => h.restartBy (s.layRow u).inUse) s

/-- R15, R53: the heads at RELEASE: only BROKEN heads change. -/
def releaseHeads (s : State) : State :=
  mapHeads (fun u h => if h.state = .broken then h.restartBy (s.layRow u).inUse else h) s

/-- R55: one head at a product start. -/
def HeadRecord.productStart (h : HeadRecord) (inUse : Bool) : HeadRecord :=
  { (if h.state = .broken then h else h.restartBy inUse) with windowSum := 0, reports := 0, driftWindows := 0 }

/-- R55: the heads at a product start, set from the product that has just become current. -/
def productStartHeads (s : State) : State :=
  mapHeads (fun u h => h.productStart (s.layRow u).inUse) s

/-- R54: the drift windows of every head are cleared at a coil open. -/
def clearDriftWindows (s : State) : State := mapHeads (fun _ h => { h with driftWindows := 0 }) s

/-! ## TURNS reports (R41 to R45) -/

/-- R38: the window sum saturates at either end. -/
def satSum (a b : Int) : Int := max (-2147483648) (min 2147483647 (a + b))

/-- R41: the three cases in which a TURNS payload is rejected. -/
def turnsRejected (payload : List Byte) : Bool :=
  payload.length < 5 || 1023 < numberAt payload 3 2 || 8 < numberAt payload 5 1

/-- R42: whether the lay monitor works in a mode. -/
def Mode.supervises : Mode → Bool
  | .threading => true
  | .run => true
  | .creep => true
  | .parked => false
  | .halted => false

/-- R42: whether a report that passed its check is taken. -/
def State.takesTurns (s : State) (u : HeadUnit) : Bool :=
  s.mode.supervises && (s.layRow u).inUse && (s.head u).state ≠ .broken

/-- R43: a taken report accumulated. -/
def HeadRecord.accumulate (h : HeadRecord) (twist : Int) (tension strands : Nat) : HeadRecord :=
  { h with
    windowSum := satSum h.windowSum twist
    reports := bump h.reports
    lastTension := tension
    lastStrands := strands }

/-- R43, R44: the head record after a taken report, BROKEN included. -/
def HeadRecord.afterReport (h : HeadRecord) (p : ProductRow) (twist : Int) (tension strands : Nat) : HeadRecord :=
  let h := h.accumulate twist tension strands
  if strands < p.strandCount then { h with state := .broken }
  else if tension < p.tensionFloor then
    if p.breakFilter ≤ h.lowRun + 1 then { h with lowRun := h.lowRun + 1, state := .broken }
    else { h with lowRun := h.lowRun + 1 }
  else { h with lowRun := 0 }

/-- R43 to R45: a taken report: the head record, then STRAND_BREAK for a head made BROKEN. -/
def takeTurns (u : HeadUnit) (twist : Int) (tension strands : Nat) (s : State) : State :=
  let h := (s.head u).afterReport s.product twist tension strands
  if h.state = .broken then raise .strandBreak (some u.val) 1 0 (setHead u h s) else setHead u h s

/-- R41, R42: a tapped TURNS report of the head with unit `u`. -/
def turnsReceived (u : HeadUnit) (payload : List Byte) (s : State) : State :=
  if turnsRejected payload then { s with lay.rejectedTurns := bump s.lay.rejectedTurns }
  else if s.takesTurns u then
    takeTurns u (signedOf 2 (numberAt payload 1 2)) (numberAt payload 3 2) (numberAt payload 5 1) s
  else { s with lay.ignoredTurns := bump s.lay.ignoredTurns }

/-! ## The window end (R46 to R49) -/

/-- R47: the measured lay of window sum `sum` over extent `w` with take-up `t`. -/
def measuredLay (sum : Int) (w t : Nat) : Nat := min (sum.natAbs * 10000000 / (w * t)) 4294967295

/-- R47: the deviation of a measured lay. -/
def layDeviation (sum : Int) (measured : Nat) (row : LayRow) : Nat :=
  if sum = 0 then 1000
  else if 0 < sum ∧ row.direction = .s then 1000
  else if sum < 0 ∧ row.direction = .z then 1000
  else min (((measured : Int) - row.targetLay).natAbs * 1000 / row.targetLay) 65535

/-- What a window end makes of one head: its record, whether it was measured, and the occurrence
noted, if any. -/
structure Judgement where
  head : HeadRecord
  measured : Bool
  noted : Option FaultKind
  deriving DecidableEq, Repr

/-- R47: a head measured and judged against a tolerance. -/
def measureHead (h : HeadRecord) (row : LayRow) (w tolerance : Nat) : Judgement :=
  let lay := measuredLay h.windowSum w row.takeUp
  let dev := layDeviation h.windowSum lay row
  let h := { h with lastLay := lay, lastDeviation := dev }
  if tolerance < dev then
    { head := { h with state := .drift, driftWindows := bump h.driftWindows }, measured := true, noted := some .layDrift }
  else { head := { h with state := .tracking }, measured := true, noted := none }

/-- R46: a head with no report in the window is STALE; another is measured. -/
def judgeReporting (h : HeadRecord) (row : LayRow) (w tolerance : Nat) : Judgement :=
  if h.reports = 0 then { head := { h with state := .stale }, measured := false, noted := some .headStale }
  else measureHead h row w tolerance

/-- R46: one head at a window end in THREADING, RUN or CREEP, by its state at the start of it. -/
def judgeHead (h : HeadRecord) (row : LayRow) (w tolerance : Nat) : Judgement :=
  if row.inUse then
    match h.state with
    | .broken => { head := h, measured := false, noted := none }
    | .settling => { head := { h with state := .tracking }, measured := false, noted := none }
    | .tracking => judgeReporting h row w tolerance
    | .drift => judgeReporting h row w tolerance
    | .stale => judgeReporting h row w tolerance
    | .unused => { head := h, measured := false, noted := none }
  else { head := h, measured := false, noted := none }

/-- R48: a head's window sum and reports cleared. -/
def HeadRecord.clearWindow (h : HeadRecord) : HeadRecord := { h with windowSum := 0, reports := 0 }

/-- R46, R48: the window sums of all heads cleared. -/
def clearWindows (s : State) : State := mapHeads (fun _ h => h.clearWindow) s

/-- R46: the tolerance of a window end. -/
def State.tolerance (s : State) : Nat :=
  if s.mode = .threading then s.product.threadTolerance else s.product.runTolerance

/-- R46: the judgement of a unit at a window end of extent `w`. -/
def State.judgement (s : State) (w : Nat) (u : HeadUnit) : Judgement :=
  judgeHead (s.head u) (s.layRow u) w s.tolerance

/-- R49: the greatest deviation measured at a window end. -/
def State.worstMeasured (s : State) (w : Nat) : Nat :=
  allUnits.foldl
    (fun m u => if (s.judgement w u).measured then max m (s.judgement w u).head.lastDeviation else m) 0

/-- R49: whether at least one head was measured. -/
def State.anyMeasured (s : State) (w : Nat) : Bool := allUnits.any (fun u => (s.judgement w u).measured)

/-- R49: whether at least one head was judged DRIFT. -/
def State.anyDrift (s : State) (w : Nat) : Bool :=
  allUnits.any (fun u => (s.judgement w u).noted = some .layDrift)

/-- R49: the lay summary of the open coil after a window end. -/
def writeSummary (measured drift : Bool) (worst : Nat) (c : CoilRecord) : CoilRecord :=
  if measured then
    { c with
      worstDeviation := max c.worstDeviation worst
      driftWindows := if drift then bump c.driftWindows else c.driftWindows }
  else c

/-- R48: the occurrences noted at a window end, in ascending head unit. -/
def State.notedAtWindow (s : State) (w : Nat) : List Occurrence :=
  allUnits.filterMap (fun u => (s.judgement w u).noted.map (fun k => occurrence s k (some u.val) 1 w))

/-- R46 to R49: a window end of extent `w` handed to the lay monitor. -/
def windowEnded (w : Nat) (s : State) : State :=
  if s.mode.supervises then
    let judged := mapHeads (fun u _ => (s.judgement w u).head.clearWindow) s
    let c := writeSummary (s.anyMeasured w) (s.anyDrift w) (s.worstMeasured w) s.coil.openCoil
    handleAll (s.notedAtWindow w) { judged with coil.openCoil := c }
  else clearWindows s

/-! ## Commands -/

/-- TURNS (R41). -/
def execTurns (unit : Fin 24) (payload : List Byte) (s : State) : Host.Outcome State Fault Refusal :=
  .next (whenWorking s (turnsReceived unit payload))

end Sys2Proof.Machine
end

