-- ==== Sys2Proof/Machine/Mesh.lean ====
section
/-! DEFINITION. The mesh monitor (R60 to R83): the cursor and its loading, the advance by rows with
tapers and step changes, and the seven steps of a processed ROWDONE. -/

namespace Sys2Proof.Machine

/-! ## Loading and unsynchronisation (R62, R63) -/

/-- R63: the cursor loaded on a start step. -/
def Cursor.load (i : StepIndex) (row : MeshRow) : Cursor :=
  { stepIndex := i, rowsDone := 0, held := false, bandFirst := row.first, bandLast := row.last,
    taperCount := 0, phase := 0, expected := none, pitchRef := none }

/-- R63: the monitor loaded from the current product: ACTIVE on its start step, or INACTIVE. -/
def loadCursor (s : State) : State :=
  match s.product.kind with
  | .twineNet =>
    { s with mesh.active := true, mesh.misses := [],
             mesh.cursor := Cursor.load s.product.startStep (s.tables.meshRow s.product.startStep) }
  | .rope => { s with mesh.active := false, mesh.misses := [], mesh.cursor := Cursor.cleared }

/-- R62, R63: the expected row becomes UNSYNCED and the pitch reference none. -/
def unsync (s : State) : State :=
  { s with mesh.cursor.expected := none, mesh.cursor.pitchRef := none }

/-- R8, R63: the monitor at entry to THREADING from PARKED. -/
def enterThreadingMesh (s : State) : State :=
  match s.product.kind with
  | .twineNet => if s.mesh.active then unsync s else loadCursor s
  | .rope => if s.mesh.active then loadCursor s else s

/-- R15, R63: the monitor at RELEASE. -/
def releaseMesh (s : State) : State :=
  match s.product.kind with
  | .twineNet => unsync s
  | .rope => s

/-! ## Advancing the cursor (R69 to R71) -/

/-- The step the cursor follows. -/
def State.meshStep (s : State) : MeshRow := s.tables.meshRow s.mesh.cursor.stepIndex

/-- R70, R71: miss table entries outside the current band are removed. -/
def pruneMisses (s : State) : State :=
  let kept := s.mesh.misses.filter
    (fun e => s.mesh.cursor.bandFirst ≤ e.position && e.position ≤ s.mesh.cursor.bandLast)
  { s with mesh.misses := kept }

/-- R70: the new edges of a taper, when they make a valid band. -/
def taperedBand (first last : Nat) (row : MeshRow) : Option (Nat × Nat) :=
  let f := (first : Int) - row.widenLeft
  let l := (last : Int) + row.widenRight
  if 0 ≤ f ∧ l ≤ 511 ∧ f ≤ l then some (f.toNat, l.toNat) else none

/-- R70: a taper. -/
def taper (s : State) : State :=
  let s' := { s with mesh.cursor.taperCount := satAdd 255 s.mesh.cursor.taperCount 1 }
  match taperedBand s.mesh.cursor.bandFirst s.mesh.cursor.bandLast s.meshStep with
  | some (f, l) => pruneMisses { s' with mesh.cursor.bandFirst := f, mesh.cursor.bandLast := l }
  | none => { s' with mesh.counts.refusedTapers := bump s.mesh.counts.refusedTapers }

/-- R71: the cursor moves to a step. -/
def enterStep (i : StepIndex) (row : MeshRow) (s : State) : State :=
  pruneMisses { s with
    mesh.cursor.stepIndex := i
    mesh.cursor.bandFirst := row.first
    mesh.cursor.bandLast := row.last
    mesh.cursor.rowsDone := 0
    mesh.cursor.taperCount := 0
    mesh.cursor.phase := 0 }

/-- R71: the cursor is held on its step. -/
def holdCursor (s : State) : State := { s with mesh.cursor.held := true }

/-- R71: a step ends. -/
def endStep (s : State) : State :=
  match s.meshStep.next with
  | none => holdCursor s
  | some i =>
    let row := s.tables.meshRow i
    if row.valid ∧ row.first ≤ row.last then enterStep i row s
    else holdCursor { s with mesh.counts.refusedSteps := bump s.mesh.counts.refusedSteps }

/-- R69 change 3: the selvedge phase after one row, under interval code `c`. -/
def nextPhase (phase c : Nat) : Nat := if 2 * c + 1 ≤ phase + 1 then 0 else phase + 1

/-- R69 changes 1 to 3. -/
def countRow (s : State) : State :=
  let s := addRow s
  { s with mesh.cursor.rowsDone := satAdd 65535 s.mesh.cursor.rowsDone 1,
           mesh.cursor.phase := nextPhase s.mesh.cursor.phase s.meshStep.selvedgeCode }

/-- R69 change 4. -/
def taperIfDue (s : State) : State :=
  if s.mesh.cursor.held = false ∧ s.mesh.cursor.rowsDone % s.meshStep.taperEvery = 0 then taper s else s

/-- R69 change 5. -/
def endStepIfDue (s : State) : State :=
  if s.mesh.cursor.held = false ∧ s.meshStep.rows ≤ s.mesh.cursor.rowsDone then endStep s else s

/-- R69: the cursor advances by one row. -/
def advance (s : State) : State := endStepIfDue (taperIfDue (countRow s))

/-- R68: the cursor advances by `d` rows, one after another. -/
def advanceBy : Nat → State → State
  | 0, s => s
  | d + 1, s => advanceBy d (advance s)

/-! ## Positions and the miss table (R61, R72 to R76) -/

/-- R72: whether a position lies within the band. -/
def Cursor.inBand (c : Cursor) (p : Nat) : Bool := c.bandFirst ≤ p && p ≤ c.bandLast

/-- R61: whether a position lies in the selvedge zone of the band, of this width. -/
def Cursor.inZone (c : Cursor) (width p : Nat) : Bool := p < c.bandFirst + width || c.bandLast < p + width

/-- R72: whether a position is checkable on the row. -/
def State.checkable (s : State) (p : Nat) : Bool :=
  s.mesh.cursor.inBand p && (!s.mesh.cursor.inZone s.meshStep.selvedgeWidth p || s.mesh.cursor.phase == 0)

/-- R74: one more miss in the entry of a position. -/
def missAgain (limit p : Nat) (l : List MissEntry) : List MissEntry :=
  l.map (fun e =>
    if e.position = p then
      { e with misses := satAdd 255 e.misses 1, flagged := e.flagged || limit ≤ satAdd 255 e.misses 1 }
    else e)

/-- R74: whether an entry of the position becomes needle-flagged by one more miss. -/
def flagsNow (limit p : Nat) (l : List MissEntry) : Bool :=
  l.any (fun e => e.position = p && !e.flagged && limit ≤ satAdd 255 e.misses 1)

/-- R73, R74: what step 3 gathers: the state, the positions taken so far, whether MISS_TRACK_FULL has
been noted for the row, and the occurrences noted, in order. -/
structure RowScan where
  state : State
  seen : List Nat
  fullNoted : Bool
  noted : List Occurrence
  deriving DecidableEq, Repr

/-- R74: a checkable miss that finds the miss table full. -/
def missUntracked (sc : RowScan) : RowScan :=
  let s := { sc.state with mesh.counts.untrackedMisses := bump sc.state.mesh.counts.untrackedMisses }
  if sc.fullNoted then { sc with state := s }
  else { sc with state := s, fullNoted := true, noted := sc.noted ++ [occurrence s .missTrackFull none 1 0] }

/-- R74: the miss table entry of a checkable listed position. -/
def trackMiss (p : Nat) (sc : RowScan) : RowScan :=
  let s := sc.state
  let limit := s.product.needleLimit
  if s.mesh.misses.any (fun e => e.position = p) then
    { sc with
      state := { s with mesh.misses := missAgain limit p s.mesh.misses }
      noted := sc.noted ++
        (if flagsNow limit p s.mesh.misses then [occurrence s .needleFault (some p) 1 0] else []) }
  else if s.mesh.misses.length < 32 then
    { sc with state := { s with mesh.misses := s.mesh.misses ++ [{ position := p, misses := 1, flagged := false }] } }
  else missUntracked sc

/-- R73: one listed position. -/
def scanPosition (sc : RowScan) (p : Nat) : RowScan :=
  let s := sc.state
  let sc' := { sc with seen := sc.seen ++ [p] }
  if s.mesh.cursor.inBand p = false ∨ p ∈ sc.seen then
    { sc' with state := { s with mesh.counts.strayPositions := bump s.mesh.counts.strayPositions } }
  else if s.checkable p then
    trackMiss p { sc' with noted := sc.noted ++ [occurrence s .missingKnot (some p) 1 0] }
  else sc'

/-- R73: the listed positions, in the order the report gives them. -/
def scanPositions (listed : List Nat) (sc : RowScan) : RowScan := listed.foldl scanPosition sc

/-- R75: the occurrence of the unnamed remainder. -/
def remainderNoted (s : State) (missing : Nat) : List Occurrence :=
  if 14 < missing then [occurrence s .missingKnot none (missing - 14) 0] else []

/-- R76: entries that formed their knot are removed, unless the report leaves knots unnamed. -/
def clearMisses (missing : Nat) (listed : List Nat) (s : State) : State :=
  if missing ≤ 14 then
    { s with mesh.misses := s.mesh.misses.filter (fun e => !s.checkable e.position || listed.contains e.position) }
  else s

/-! ## Row number and row pitch (R67, R68, R77) -/

/-- R67: the gap of a reported row number: 0 when UNSYNCED. -/
def rowDistance (expected : Option Nat) (row : Nat) : Nat :=
  match expected with
  | none => 0
  | some e => (row + 65536 - e) % 65536

/-- R68: the haul since the pitch reference, 0 when there is none or it is negative. -/
def gapExtent (haul : Nat) (pitchRef : Option Nat) : Nat :=
  match pitchRef with
  | none => 0
  | some r => haul - r

/-- R68: the occurrence of a gap. -/
def gapNoted (s : State) (d : Nat) : List Occurrence :=
  if d = 0 then [] else [occurrence s .rowGap none d (gapExtent s.tally.haulTotal s.mesh.cursor.pitchRef)]

/-- R77: the row pitch check of step 5, after a gap of `d` rows. -/
def pitchNoted (s : State) (d : Nat) : List Occurrence :=
  match s.mesh.cursor.pitchRef with
  | none => []
  | some r =>
    let l := (s.tally.haulTotal : Int) - r
    let e := s.product.rowPitch * (1 + d)
    if s.product.rowPitch = 0 then []
    else if s.product.pitchTolerance < (l - e).natAbs * 1000 / e then [occurrence s .rowPitch none 1 l.toNat]
    else []

/-- R66 step 7. -/
def expectNext (row : Nat) (s : State) : State :=
  { s with mesh.cursor.expected := some ((row + 1) % 65536), mesh.cursor.pitchRef := some s.tally.haulTotal }

/-! ## ROWDONE (R64 to R66, R78) -/

/-- R64: the listed count of a payload. -/
def listedCount (payload : List Byte) : Nat := min (numberAt payload 3 1) 14

/-- R64: whether a ROWDONE payload is rejected. -/
def rowdoneRejected (payload : List Byte) : Bool :=
  payload.length < 3 || payload.length < 3 + 2 * listedCount payload

/-- R64: the listed positions, two characters each. -/
def listedPositions (payload : List Byte) : List Nat :=
  (List.range (listedCount payload)).map (fun i => numberAt payload (4 + 2 * i) 2)

/-- R66, R78: steps 1 to 7 of a processed report with gap `d`, then its occurrences in the order noted. -/
def processRow (d row missing : Nat) (listed : List Nat) (s : State) : State :=
  let gap := gapNoted s d
  let s1 := advanceBy d s
  let sc := scanPositions listed { state := s1, seen := [], fullNoted := false, noted := [] }
  let rest := remainderNoted s missing
  let s4 := clearMisses missing listed sc.state
  let pitch := pitchNoted s4 d
  handleAll (gap ++ sc.noted ++ rest ++ pitch) (expectNext row (advance s4))

/-- R65: whether a report that passed its check is processed. -/
def State.processesRows (s : State) : Bool := s.mode.supervises && s.mesh.active

/-- R66, R67: a report to be processed: a duplicate ends at step 1. -/
def rowReported (row missing : Nat) (listed : List Nat) (s : State) : State :=
  let d := rowDistance s.mesh.cursor.expected row
  if 256 ≤ d then { s with mesh.counts.duplicateRows := bump s.mesh.counts.duplicateRows }
  else processRow d row missing listed s

/-- R64, R65: a tapped ROWDONE report. -/
def rowdoneReceived (payload : List Byte) (s : State) : State :=
  if rowdoneRejected payload then { s with mesh.counts.rejectedRowdone := bump s.mesh.counts.rejectedRowdone }
  else if s.processesRows then
    rowReported (numberAt payload 1 2) (numberAt payload 3 1) (listedPositions payload) s
  else { s with mesh.counts.ignoredRows := bump s.mesh.counts.ignoredRows }

/-! ## Commands -/

/-- ROWDONE (R66). -/
def execRowdone (payload : List Byte) (s : State) : Host.Outcome State Fault Refusal :=
  .next (whenWorking s (rowdoneReceived payload))

end Sys2Proof.Machine
end

