-- ==== Sys2Proof/Machine/Tally.lean ====
section
/-! DEFINITION. The length tally (R19 to R36): amounts given to the counters and the underflows handed
on, HAUL reports, and the time base. -/

namespace Sys2Proof.Machine

/-! ## Length counters given an amount (R21 step 4, R25 to R29) -/

/-- R25, R27: COIL given an amount: its underflow is handed on with the excess as the cut lag. -/
def giveCoil (n : Nat) (s : State) : State :=
  let c := s.tally.coil
  if underflowsAt c.running c.current n then
    coilUnderflowed (n - c.current) { s with tally.coil := c.underflow (n - c.current) }
  else if c.running then { s with tally.coil.current := c.current - n }
  else s

/-- R28: the mark length of a MARK underflow with excess `e`: the open coil's length less what of the
amount lies past the last crossing of zero. A length too small for that comes from no HAUL (log 20). -/
def markLength (length : Nat) (c : Repeating) (e : Nat) : Nat :=
  if e % c.preset ≤ length then length - e % c.preset
  else (Config.markLengthBelowZero length (e % c.preset)).toNat

/-- R25, R28: MARK given an amount. -/
def giveMark (n : Nat) (s : State) : State :=
  let c := s.tally.mark
  let e := n - c.current
  if underflowsAt c.running c.current n then
    markUnderflowed (markLength s.coil.openCoil.length c e) (e / c.preset) { s with tally.mark := c.reload e }
  else if c.running then { s with tally.mark.current := c.current - n }
  else s

/-- R25, R29: WINDOW given an amount: the amount enters the window length, and an underflow hands on
the window extent and clears the window length. -/
def giveWindow (n : Nat) (s : State) : State :=
  let c := s.tally.window
  let w := s.tally.windowLength + n
  if underflowsAt c.running c.current n then
    windowEnded w { s with tally.window := c.reload (n - c.current), tally.windowLength := 0 }
  else if c.running then { s with tally.window.current := c.current - n, tally.windowLength := w }
  else s

/-- R21 step 4: an applied amount given to COIL, MARK and WINDOW, in this order. -/
def giveLength (n : Nat) (s : State) : State := giveWindow n (giveMark n (giveCoil n s))

/-! ## HAUL reports (R20 to R23) -/

/-- R19: the upper limit of the haul total. -/
def haulLimit : Nat := 2147483647

/-- R21, R23: a report counted as clipped when part of its increment is discarded. -/
def countClipped (clipped : Bool) (s : State) : State :=
  if clipped then { s with tally.clippedHaul := bump s.tally.clippedHaul } else s

/-- R21: a positive increment. An applied amount of 0 gives nothing to any counter. -/
def haulForward (n : Nat) (s : State) : State :=
  let a := min n (haulLimit - s.tally.haulTotal)
  let s := countClipped (a < n) s
  if a = 0 then s
  else giveLength a (addLength a { s with tally.haulTotal := s.tally.haulTotal + a })

/-- R23: a negative increment clamped at the open coil's length. -/
def haulBack (m : Nat) (s : State) : State :=
  let a := min m s.coil.openCoil.length
  let s := countClipped (a < m) s
  { s with tally.haulTotal := s.tally.haulTotal - a, coil.openCoil.length := s.coil.openCoil.length - a }

/-- R20, R22: whether the mode is RUN or CREEP. -/
def Mode.produces : Mode → Bool
  | .run => true
  | .creep => true
  | .parked => false
  | .threading => false
  | .halted => false

/-- R20 steps 2 to 4. -/
def applyIncrement (i : Int) (s : State) : State :=
  if i = 0 then s
  else if 0 < i then haulForward i.toNat s
  else if s.mode.produces then raise .haulReverse none 1 0 s
  else haulBack (-i).toNat s

/-- R20 step 1: HAULWATCH re-preset by a nonzero increment in RUN or CREEP. -/
def haulHeard (i : Int) (s : State) : State := if i ≠ 0 ∧ s.mode.produces then presetHaulwatch s else s

/-- R20: a tapped HAUL report. -/
def haulReceived (payload : List Byte) (s : State) : State :=
  if payload.length < 2 then { s with tally.shortHaul := bump s.tally.shortHaul }
  else
    let i := signedOf 2 (numberAt payload 1 2)
    applyIncrement i (haulHeard i { s with tally.haulTaken := bump s.tally.haulTaken })

/-! ## Time counters (R31 to R33) -/

/-- R31: whether a time counter underflows at the next expiry. -/
def OneShot.expires (c : OneShot) : Bool := c.running && c.current ≤ 1

/-- R31: a time counter after one expiry of the time base. -/
def OneShot.tick (c : OneShot) : OneShot :=
  if c.expires then c.underflow 0 else if c.running then { c with current := c.current - 1 } else c

/-- R32: a HAULWATCH underflow handed on. -/
def haulSilent (s : State) : State := raise .haulSilent none 1 0 s

/-- R31: the hand-overs of one expiry. Where both counters underflow the order is open, and a free
value decides it (log 7). -/
def handExpiries (watch wait : Bool) (s : State) : State :=
  match watch, wait with
  | false, false => s
  | true, false => haulSilent s
  | false, true => cutwaitExpired s
  | true, true =>
    if Config.haulwatchFirst s.freeDraws then cutwaitExpired (haulSilent s.drawn)
    else haulSilent (cutwaitExpired s.drawn)

/-- R31: the 1 ms time base expires. -/
def timeBaseExpired (s : State) : State :=
  handExpiries s.tally.haulwatch.expires s.tally.cutwait.expires
    { s with tally.haulwatch := s.tally.haulwatch.tick, tally.cutwait := s.tally.cutwait.tick }

/-- R31, R32: HAULWATCH, if running, underflows now. -/
def haulwatchUnderflows (s : State) : State :=
  if s.tally.haulwatch.running then haulSilent { s with tally.haulwatch := s.tally.haulwatch.underflow 0 } else s

/-- R31, R33, R100: CUTWAIT, if running, underflows now. -/
def cutwaitUnderflows (s : State) : State :=
  if s.tally.cutwait.running then cutwaitExpired { s with tally.cutwait := s.tally.cutwait.underflow 0 } else s

/-! ## Commands -/

/-- HAUL (R20). -/
def execHaul (payload : List Byte) (s : State) : Host.Outcome State Fault Refusal :=
  .next (whenWorking s (haulReceived payload))

/-- TIME_BASE_EXPIRY (R31). -/
def execTimeBaseExpiry (s : State) : Host.Outcome State Fault Refusal := .next (whenWorking s timeBaseExpired)

/-- HAULWATCH_UNDERFLOW (R32). -/
def execHaulwatchUnderflow (s : State) : Host.Outcome State Fault Refusal :=
  .next (whenWorking s haulwatchUnderflows)

/-- CUTWAIT_UNDERFLOW (R100). -/
def execCutwaitUnderflow (s : State) : Host.Outcome State Fault Refusal :=
  .next (whenWorking s cutwaitUnderflows)

/-- COIL_UNDERFLOW (R92): the underflow of COIL within an amount; without one, nothing (log 5). -/
def execCoilUnderflow (amount : Nat) (s : State) : Host.Outcome State Fault Refusal :=
  .next (whenWorking s (fun s =>
    if underflowsAt s.tally.coil.running s.tally.coil.current amount then giveCoil amount s else s))

/-- MARK_UNDERFLOW (R101): the underflow of MARK within an amount; without one, nothing (log 5). -/
def execMarkUnderflow (amount : Nat) (s : State) : Host.Outcome State Fault Refusal :=
  .next (whenWorking s (fun s =>
    if underflowsAt s.tally.mark.running s.tally.mark.current amount then giveMark amount s else s))

/-- WINDOW_END (R46): the underflow of WINDOW within an amount; without one, nothing (log 5). -/
def execWindowEnd (amount : Nat) (s : State) : Host.Outcome State Fault Refusal :=
  .next (whenWorking s (fun s =>
    if underflowsAt s.tally.window.running s.tally.window.current amount then giveWindow amount s else s))

end Sys2Proof.Machine
end

