-- ==== Sys2Proof/Machine/Product.lean ====
section
/-! DEFINITION. Products: the consistency examinations (R4 to R7), the product start (R111), the closing
CUTDONE with its coil open (R97 to R99), and the changeover (R115, R116). -/

namespace Sys2Proof.Machine

/-! ## Consistency examinations (R4 to R7) -/

/-- The table and row an examination fails at (R206 codes); none where it passes. -/
abbrev Failure := Option (Nat × Nat)

/-- What the scan of the station map has met so far (R5). -/
structure MapScan where
  roles : List Role
  units : List HeadUnit
  deriving DecidableEq, Repr

/-- R5: the roles of which a consistent map holds at most one row. -/
def Role.atMostOne : Role → Bool
  | .master => true
  | .knotter => true
  | .hauloff => true
  | .cutter => true
  | .packer => true
  | .unused => false
  | .head => false
  | .other => false

/-- R5: whether a row meets the conditions of the scan. -/
def stationRowOk (own : Addr) (seen : MapScan) (a : Nat) (row : StationRow) : Bool :=
  ((a ≠ 127 && a ≠ own.toNat) || row.role = .unused)
    && (row.role ≠ .master || row.side = .u)
    && ((row.role ≠ .knotter && row.role ≠ .hauloff && row.role ≠ .cutter && row.role ≠ .packer) || row.side = .d)
    && (!row.role.atMostOne || !seen.roles.contains row.role)
    && (row.role ≠ .head || !seen.units.contains row.unit)

/-- R5: a row taken into the scan. -/
def MapScan.note (seen : MapScan) (row : StationRow) : MapScan :=
  { roles := row.role :: seen.roles, units := if row.role = .head then row.unit :: seen.units else seen.units }

/-- R5: the scan of the rows from address `a` on. A map without a MASTER fails at row 0. -/
def scanStations (own : Addr) (seen : MapScan) (a : Nat) : List StationRow → Failure
  | [] => if seen.roles.contains .master then none else some (tableStations, 0)
  | row :: rest =>
    if stationRowOk own seen a row then scanStations own (seen.note row) (a + 1) rest
    else some (tableStations, a)

/-- R5: the station map examined. -/
def examineStations (own : Addr) (t : Tables) : Failure :=
  scanStations own { roles := [], units := [] } 0 t.stations

/-- R6: whether the map holds a HEAD row of a unit. -/
def Tables.hasHead (t : Tables) (u : HeadUnit) : Bool :=
  t.stations.any (fun row => row.role = .head && row.unit = u)

/-- R6: the first lay row in use without its HEAD row, or the absence of any row in use. -/
def examineLays (t : Tables) (slot : Slot) : Failure :=
  match (allUnits.find? (fun u => (t.layRow slot u).inUse && !t.hasHead u)) with
  | some u => some (tableLays, slot.val * 24 + u.val)
  | none => if allUnits.any (fun u => (t.layRow slot u).inUse) then none else some (tableLays, slot.val * 24)

/-- R61, R7: the tapers a step makes. -/
def MeshRow.tapers (r : MeshRow) : Nat := r.rows / r.taperEvery

/-- R7: the three conditions on a step. The band moves by the same amounts at every taper, so it stays
within bounds through all of them when it does at the last (log 28). -/
def meshRowOk (r : MeshRow) : Bool :=
  let f := (r.first : Int) - r.tapers * r.widenLeft
  let l := (r.last : Int) + r.tapers * r.widenRight
  r.valid && r.first ≤ r.last && 0 ≤ f && l ≤ 511 && f ≤ l

/-- R7: the walk from a step, with the steps visited so far; 64 steps at most are distinct. -/
def walkMesh (t : Tables) : Nat → List StepIndex → StepIndex → Failure
  | 0, _, _ => none
  | fuel + 1, visited, i =>
    if meshRowOk (t.meshRow i) then
      match (t.meshRow i).next with
      | none => none
      | some j => if j ∈ i :: visited then none else walkMesh t fuel (i :: visited) j
    else some (tableMesh, i.val)

/-- R7: the mesh pattern examined for a product. -/
def examineMesh (t : Tables) (p : ProductRow) : Failure :=
  match p.kind with
  | .twineNet => walkMesh t 64 [] p.startStep
  | .rope => none

/-- R6: the product row's own conditions. -/
def ProductRow.consistent (p : ProductRow) : Bool := p.valid && p.gradeB < p.gradeC && p.gradeC < p.rejectAt

/-- R6, R7: a product examined: its row, its lay rows, its mesh pattern. -/
def examineProduct (t : Tables) (slot : Slot) : Failure :=
  if (t.product slot).consistent then (examineLays t slot).or (examineMesh t (t.product slot))
  else some (tableProducts, slot.val)

/-- R4: the consistency examination at THREADING entry. -/
def State.examineAll (s : State) : Failure :=
  ((examineStations s.ownAddress s.tables).or (examineProduct s.tables s.coil.current)).or
    (match s.coil.next with
     | some n => examineProduct s.tables n
     | none => none)

/-! ## The product start (R111) -/

/-- R84, R111: the open coil takes the product id and net of the current product. -/
def setOpenProduct (s : State) : State :=
  { s with coil.openCoil.productId := s.product.productId, coil.openCoil.net := s.product.kind = .twineNet }

/-- R111: the product start of a SET_PRODUCT. -/
def productStart (slot : Slot) (s : State) : State :=
  handImmediate (presetAll (loadCursor (productStartHeads (setOpenProduct { s with coil.current := slot }))))

/-! ## The close (R97, R98) -/

/-- R89: the grade of a record's points under a product's thresholds. R89 gives one row of its table for
thresholds that are strictly increasing, which R6 examines on the way to THREADING alone. Under
thresholds that are not, which R196 lets a write leave and R109 lets a coil be closed with, several rows can
hold at once; the model takes the first of A, B, C, REJECT that holds (log 33, the model's choice). -/
def gradeOf (p : ProductRow) (points : Nat) : Grade :=
  if points < p.gradeB then .a else if points < p.gradeC then .b else if points < p.rejectAt then .c else .reject

/-- The sum of the points of entries, saturating as a record's points do (R84). -/
def pointsOf (l : List Defect) : Nat := l.foldl (fun n e => satAdd 4294967295 n e.points) 0

/-- R98 step 3: the entries that stay with the closing record, split at `cut`. -/
def stayingDefects (cut : Nat) (l : List Defect) : List Defect := l.filter (fun e => e.offset < cut)

/-- R98 step 3: the entries kept for the new record, each with its offset reduced by `cut`. -/
def movedDefects (cut : Nat) (l : List Defect) : List Defect :=
  (l.filter (fun e => cut ≤ e.offset)).map (fun e => { e with offset := e.offset - cut })

/-- R98 step 3: the points left to the closing record. Where a sum has saturated and more points are
removed than the record holds, the manual states no result (log 19). -/
def pointsLeft (points removed : Nat) : Nat :=
  if removed ≤ points then points - removed else (Config.pointsAfterSplit points removed).toNat

/-- R98 steps 3 and 4: the record as it is closed with length `cut`, under the current product. -/
def CoilRecord.close (c : CoilRecord) (p : ProductRow) (cut : Nat) : CoilRecord :=
  let left := pointsLeft c.points (((c.defects.filter (fun e => cut ≤ e.offset)).map Defect.points).sum)
  { c with
    defects := stayingDefects cut c.defects
    points := left
    length := cut
    state := .closed
    grade := some (gradeOf p left) }

/-- R98 steps 1 to 6: the closing record enters the coil queue, and a pending TAKE is served. -/
def closeOpenCoil (cut : Nat) (s : State) : State :=
  let s := stopCutwait s
  servePending { s with coil.queue := s.coil.queue ++ [s.coil.openCoil.close s.product cut] }

/-! ## The coil open (R99) and the changeover (R115, R116) -/

/-- R85: the coil number after another. -/
def nextNumber (n : Nat) : Nat := if n = 65535 then 1 else n + 1

/-- R99 steps 1 and 2: the new open coil record. -/
def newCoil (number length haulTotal : Nat) : CoilRecord :=
  { CoilRecord.first with number := number, length := length, start := haulTotal - length }

/-- R99 steps 1 and 2. -/
def makeOpenCoil (length : Nat) (s : State) : State :=
  { s with
    coil.counter := nextNumber s.coil.counter
    coil.openCoil := newCoil (nextNumber s.coil.counter) length s.tally.haulTotal }

/-- R116: an applied changeover. -/
def applyChangeover (slot : Slot) (s : State) : State :=
  loadCursor (productStartHeads (setOpenProduct { s with coil.current := slot, coil.next := none }))

/-- R115: a refused changeover. -/
def refuseChangeover (s : State) : State :=
  setOpenProduct { s with coil.next := none, coil.refusedChangeovers := bump s.coil.refusedChangeovers }

/-- R115: whether the coil open applies a changeover. -/
def State.changesOver (s : State) : Bool :=
  match s.coil.next with
  | none => false
  | some slot => (examineProduct s.tables slot).isNone

/-- R99 step 3, R115: the new record takes its product. -/
def chooseProduct (s : State) : State :=
  match s.coil.next with
  | none => setOpenProduct s
  | some slot => if s.changesOver then applyChangeover slot s else refuseChangeover s

/-- R99 step 4: the entries kept at the split are placed in the new record. -/
def placeDefects (l : List Defect) (s : State) : State :=
  { s with coil.openCoil.defects := l, coil.openCoil.points := pointsOf l }

/-- R99 step 5: the presets of a coil open, and the drift windows of every head. -/
def presetAtOpen (changed : Bool) (s : State) : State :=
  clearDriftWindows (if changed then presetAll s else presetMark (presetCoil s))

/-- R99: the coil open that follows a close. -/
def openNewCoil (length : Nat) (kept : List Defect) (s : State) : State :=
  let s1 := makeOpenCoil length s
  handImmediate (examineOverlength (presetAtOpen s1.changesOver (placeDefects kept (chooseProduct s1))))

/-- R98, R99: a CUTDONE with after-cut length `after` closes the open coil and opens the next. -/
def closeAndOpen (after : Nat) (s : State) : State :=
  let c := s.coil.openCoil
  let a := min after c.length
  let s' := openNewCoil a (movedDefects (c.length - a) c.defects) (closeOpenCoil (c.length - a) s)
  if c.length < after then raise .cutMismatch (some c.number) 1 0 s' else s'

/-- R97: whether a CUTDONE naming coil `n` closes the open coil. -/
def State.answers (s : State) (n : Nat) : Bool :=
  s.coil.openCoil.number = n && s.coil.openCoil.state = .cutting

/-- R97: a CUTDONE from the cutter. -/
def cutdoneReceived (payload : List Byte) (s : State) : State :=
  if payload.length < 4 then { s with coil.rejectedFrames := bump s.coil.rejectedFrames }
  else if s.answers (numberAt payload 1 2) then closeAndOpen (numberAt payload 3 2) s
  else raise .cutUnexpected (some (numberAt payload 1 2)) 1 0 s

/-! ## Commands -/

/-- CUTDONE (R97). -/
def execCutdone (payload : List Byte) (s : State) : Host.Outcome State Fault Refusal :=
  .next (whenWorking s (cutdoneReceived payload))

end Sys2Proof.Machine
end

