-- ==== Sys2Proof/Machine/Tables.lean ====
section
/-! DEFINITION. The loaded tables as requests name them (R195, R196, R206, R207): rows, fields by number,
ranges, and the writability of each table. -/

namespace Sys2Proof.Machine

/-- The seven tables (R195). -/
inductive TableName
  | line
  | stations
  | actions
  | products
  | lays
  | mesh
  | faults
  deriving DecidableEq, Repr

/-- R206: the table a code names. -/
def TableName.ofCode : Nat → Option TableName
  | 1 => some .line
  | 2 => some .stations
  | 3 => some .actions
  | 4 => some .products
  | 5 => some .lays
  | 6 => some .mesh
  | 7 => some .faults
  | _ => none

/-- R195, R206: whether a row number lies within a table; the fault action table has rows 1..19. -/
def TableName.hasRow : TableName → Nat → Bool
  | .line, r => r < 1
  | .stations, r => r < 128
  | .actions, r => r < 32
  | .products, r => r < 8
  | .lays, r => r < 192
  | .mesh, r => r < 64
  | .faults, r => 1 ≤ r && r ≤ 19

/-! ## Fields read (R198, R207) -/

/-- R207: the line settings in field order; field 0 is the own address in force (R195). -/
def lineFields (own : Addr) (l : LineSettings) : List Int :=
  [own.toNat, boolCode l.parityU, boolCode l.parityD, l.holdThreshold, l.haulWatch, l.cutWait, l.creepHaul,
   l.creepHead]

/-- R207: a station map row in field order. -/
def stationFields (r : StationRow) : List Int := [r.role.code, r.unit.val, portCode r.side]

/-- R207: a product row in field order. -/
def productFields (p : ProductRow) : List Int :=
  [boolCode p.valid, p.productId, p.kind.code, p.strandCount, p.runTolerance, p.threadTolerance, p.breakFilter,
   p.tensionFloor, p.coilTarget, p.cutLead, p.overlengthLimit, p.markInterval, p.layWindow, p.maxHaulSpeed,
   p.maxHeadSpeed, p.startStep.val, p.rowPitch, p.pitchTolerance, p.needleLimit, p.gradeB, p.gradeC, p.rejectAt]

/-- R207: a lay row in field order. -/
def layFields (r : LayRow) : List Int := [boolCode r.inUse, r.direction.code, r.targetLay, r.takeUp]

/-- R207: a mesh pattern row in field order. -/
def meshFields (r : MeshRow) : List Int :=
  [boolCode r.valid, r.rows, r.first, r.last, r.widenLeft, r.widenRight, r.taperEvery, r.selvedgeWidth,
   r.selvedgeCode, meshNextCode r.next]

/-- R198: the fields of a table row as they stand. -/
def State.rowFields (s : State) (t : TableName) (row : Nat) : List Int :=
  match t with
  | .line => lineFields s.ownAddress s.tables.line
  | .stations => stationFields (s.tables.station row)
  | .actions => [(s.tables.actions.getD row .forward).code]
  | .products => productFields (s.tables.products.getD row ProductRow.powerUp)
  | .lays => layFields (s.tables.lays.getD row LayRow.powerUp)
  | .mesh => meshFields (s.tables.mesh.getD row MeshRow.powerUp)
  | .faults => [(s.tables.faultClasses.getD (row - 1) .note).code]

/-! ## Fields written (R195, R196) -/

/-- A value within its field's range. -/
def inRange (lo hi v : Nat) : Option Nat := if lo ≤ v ∧ v ≤ hi then some v else none

/-- R204, R207: a signed value of widen left or widen right, −2..+2. -/
def inWiden (v : Nat) : Option Int :=
  let i := signedOf 4 v
  if -2 ≤ i ∧ i ≤ 2 then some i else none

/-- R195: a mark interval is 0 or 100..65,535. -/
def inMarkInterval (v : Nat) : Option Nat := if v = 0 then some 0 else inRange 100 65535 v

/-- R204: the next field of a mesh step: 0..63, or 64 for HOLD. -/
def inMeshNext (v : Nat) : Option (Option StepIndex) :=
  if v < 64 then some (some (Fin.ofNat 64 v)) else if v = 64 then some none else none

/-- R196: one field of the line settings; the own address is not written here. -/
def LineSettings.setField (l : LineSettings) (field v : Nat) : Option LineSettings :=
  match field with
  | 1 => (boolOfCode v).map (fun x => { l with parityU := x })
  | 2 => (boolOfCode v).map (fun x => { l with parityD := x })
  | 3 => (inRange 1 12 v).map (fun x => { l with holdThreshold := x })
  | 4 => (inRange 10 60000 v).map (fun x => { l with haulWatch := x })
  | 5 => (inRange 10 60000 v).map (fun x => { l with cutWait := x })
  | 6 => (inRange 0 65535 v).map (fun x => { l with creepHaul := x })
  | 7 => (inRange 0 65535 v).map (fun x => { l with creepHead := x })
  | _ => none

/-- R196: one field of a station map row. -/
def StationRow.setField (r : StationRow) (field v : Nat) : Option StationRow :=
  match field with
  | 0 => (Role.ofCode v).map (fun x => { r with role := x })
  | 1 => (inRange 0 23 v).map (fun x => { r with unit := Fin.ofNat 24 x })
  | 2 => (portOfCode v).map (fun x => { r with side := x })
  | _ => none

/-- R185, R196: an action table entry; CLAMP is allowed in the downstream entry of SETPT (row 8) only. -/
def setActionField (row : Nat) (_a : Action) (field v : Nat) : Option Action :=
  match field with
  | 0 => (Action.ofCode v).bind (fun x => if x = .clamp ∧ row ≠ 8 then none else some x)
  | _ => none

/-- R195, R196: one field of a product row. -/
def ProductRow.setField (p : ProductRow) (field v : Nat) : Option ProductRow :=
  match field with
  | 0 => (boolOfCode v).map (fun x => { p with valid := x })
  | 1 => (inRange 1 65535 v).map (fun x => { p with productId := x })
  | 2 => (ProductKind.ofCode v).map (fun x => { p with kind := x })
  | 3 => (inRange 1 8 v).map (fun x => { p with strandCount := x })
  | 4 => (inRange 5 200 v).map (fun x => { p with runTolerance := x })
  | 5 => (inRange 5 500 v).map (fun x => { p with threadTolerance := x })
  | 6 => (inRange 1 8 v).map (fun x => { p with breakFilter := x })
  | 7 => (inRange 0 1023 v).map (fun x => { p with tensionFloor := x })
  | 8 => (inRange 100 10000000 v).map (fun x => { p with coilTarget := x })
  | 9 => (inRange 0 65535 v).map (fun x => { p with cutLead := x })
  | 10 => (inRange 0 65535 v).map (fun x => { p with overlengthLimit := x })
  | 11 => (inMarkInterval v).map (fun x => { p with markInterval := x })
  | 12 => (inRange 50 65535 v).map (fun x => { p with layWindow := x })
  | 13 => (inRange 0 65535 v).map (fun x => { p with maxHaulSpeed := x })
  | 14 => (inRange 0 65535 v).map (fun x => { p with maxHeadSpeed := x })
  | 15 => (inRange 0 63 v).map (fun x => { p with startStep := Fin.ofNat 64 x })
  | 16 => (inRange 0 65535 v).map (fun x => { p with rowPitch := x })
  | 17 => (inRange 0 1000 v).map (fun x => { p with pitchTolerance := x })
  | 18 => (inRange 2 15 v).map (fun x => { p with needleLimit := x })
  | 19 => (inRange 0 65535 v).map (fun x => { p with gradeB := x })
  | 20 => (inRange 0 65535 v).map (fun x => { p with gradeC := x })
  | 21 => (inRange 0 65535 v).map (fun x => { p with rejectAt := x })
  | _ => none

/-- R195, R196: one field of a lay row. -/
def LayRow.setField (r : LayRow) (field v : Nat) : Option LayRow :=
  match field with
  | 0 => (boolOfCode v).map (fun x => { r with inUse := x })
  | 1 => (Direction.ofCode v).map (fun x => { r with direction := x })
  | 2 => (inRange 1 20000 v).map (fun x => { r with targetLay := x })
  | 3 => (inRange 1000 2000 v).map (fun x => { r with takeUp := x })
  | _ => none

/-- R195, R196: one field of a mesh pattern row. -/
def MeshRow.setField (r : MeshRow) (field v : Nat) : Option MeshRow :=
  match field with
  | 0 => (boolOfCode v).map (fun x => { r with valid := x })
  | 1 => (inRange 1 4095 v).map (fun x => { r with rows := x })
  | 2 => (inRange 0 511 v).map (fun x => { r with first := x })
  | 3 => (inRange 0 511 v).map (fun x => { r with last := x })
  | 4 => (inWiden v).map (fun x => { r with widenLeft := x })
  | 5 => (inWiden v).map (fun x => { r with widenRight := x })
  | 6 => (inRange 1 255 v).map (fun x => { r with taperEvery := x })
  | 7 => (inRange 0 8 v).map (fun x => { r with selvedgeWidth := x })
  | 8 => (inRange 0 15 v).map (fun x => { r with selvedgeCode := x })
  | 9 => (inMeshNext v).map (fun x => { r with next := x })
  | _ => none

/-- R123, R196: a fault action table entry; the rows of STRAND_BREAK (1) and COIL_OVERLENGTH (15) take
no write. -/
def setClassField (row : Nat) (_c : FaultClass) (field v : Nat) : Option FaultClass :=
  match field with
  | 0 => if row = 1 ∨ row = 15 then none else FaultClass.ofCode v
  | _ => none

/-- R196: the pairs written one after another; none where a pair is not allowed. -/
def setFields {α : Type} (setField : α → Nat → Nat → Option α) : List (Byte × BitVec 32) → α → Option α
  | [], r => some r
  | p :: rest, r => (setField r p.1.toNat p.2.toNat).bind (setFields setField rest)

/-- R196 steps 3 and 4: the tables after every pair has been written in a row, or none for BAD_VALUE. -/
def Tables.writeRow (t : Tables) (name : TableName) (row : Nat) (pairs : List (Byte × BitVec 32)) : Option Tables :=
  match name with
  | .line => (setFields LineSettings.setField pairs t.line).map (fun x => { t with line := x })
  | .stations =>
    (setFields StationRow.setField pairs (t.station row)).map (fun x => { t with stations := t.stations.set row x })
  | .actions =>
    (setFields (setActionField row) pairs (t.actions.getD row .forward)).map
      (fun x => { t with actions := t.actions.set row x })
  | .products =>
    (setFields ProductRow.setField pairs (t.products.getD row ProductRow.powerUp)).map
      (fun x => { t with products := t.products.set row x })
  | .lays =>
    (setFields LayRow.setField pairs (t.lays.getD row LayRow.powerUp)).map
      (fun x => { t with lays := t.lays.set row x })
  | .mesh =>
    (setFields MeshRow.setField pairs (t.mesh.getD row MeshRow.powerUp)).map
      (fun x => { t with mesh := t.mesh.set row x })
  | .faults =>
    (setFields (setClassField row) pairs (t.faultClasses.getD (row - 1) .note)).map
      (fun x => { t with faultClasses := t.faultClasses.set (row - 1) x })

/-! ## Writability (R114, R195) -/

/-- R114: whether a slot is locked by the selections. -/
def State.slotLocked (s : State) (slot : Nat) : Bool :=
  s.coil.current.val = slot || s.coil.next.map Fin.val = some slot

/-- R195: the status that a write to a table row in the mode in force is refused with, if any. -/
def State.writeRefusal (s : State) (t : TableName) (row : Nat) : Option Byte :=
  if s.mode = .parked then none
  else
    match t with
    | .products => if s.slotLocked row then some statusBusy else none
    | .lays => if s.slotLocked (row / 24) then some statusBusy else none
    | .line => some statusNotInMode
    | .stations => some statusNotInMode
    | .actions => some statusNotInMode
    | .mesh => some statusNotInMode
    | .faults => some statusNotInMode

end Sys2Proof.Machine
end

