-- ==== Sys2Proof/Machine/Reads.lean ====
section
/-! DEFINITION. The snapshots read requests return (R37, R56, R81, R105, R135, R154, R174, R198, R199) in
the layouts of R206 and R207. Each is a function of the state at the taking. -/

namespace Sys2Proof.Machine

/-- A reply (R192, R206): its status, the detail or data after it, and what the store keeps with it. -/
structure Reply where
  status : Byte
  data : List Byte
  mark : InjMark
  deriving DecidableEq, Repr

/-- A reply of a status alone. -/
def Reply.bare (status : Byte) : Reply := { status := status, data := [], mark := .plain }

/-- An OK reply with data. -/
def Reply.ok (data : List Byte) : Reply := { status := statusOk, data := data, mark := .plain }

/-- R206: INVALID_TABLE with its table and row. -/
def Reply.invalidTable (at_ : Nat × Nat) : Reply :=
  { status := statusInvalidTable, data := enc1 at_.1 ++ enc2 at_.2, mark := .plain }

/-- R206: REFUSED with its reason. -/
def Reply.refusedFor (reason : Byte) : Reply := { status := statusRefused, data := [reason], mark := .plain }

/-! ## READ_ROW (R198, R207) -/

/-- R206, R207: page `page` of a row's fields. -/
def rowPage (fields : List Int) (page : Nat) : Reply :=
  if fields.length ≤ 7 * page then Reply.bare statusBadRow
  else Reply.ok (enc1 (7 * page) ++ ((fields.drop (7 * page)).take 7).flatMap encSigned4)

/-- R198: READ_ROW. -/
def readRowReply (s : State) (table row page : Nat) : Reply :=
  match TableName.ofCode table with
  | none => Reply.bare statusBadValue
  | some t => if t.hasRow row then rowPage (s.rowFields t row) page else Reply.bare statusBadRow

/-! ## READ_HEAD and READ_COUNTERS (R56, R154) -/

/-- R206: the data of READ_HEAD. -/
def headData (h : HeadRecord) (inUse : Bool) : List Byte :=
  enc1 h.state.code ++ encSigned4 h.windowSum ++ enc2 h.reports ++ enc2 h.lastTension ++ enc1 h.lowRun
    ++ enc1 h.lastStrands ++ enc4 h.lastLay ++ enc2 h.lastDeviation ++ enc2 h.driftWindows ++ enc1 (boolCode inUse)

/-- R56: READ_HEAD. -/
def readHeadReply (s : State) (unit : Nat) : Reply :=
  if unit < 24 then Reply.ok (headData (s.head (Fin.ofNat 24 unit)) (s.layRow (Fin.ofNat 24 unit)).inUse)
  else Reply.bare statusBadRow

/-- R206: the data of READ_COUNTERS. -/
def countersData (p : Port) (c : PortCounters) : List Byte :=
  enc1 (portCode p) ++ enc2 c.framesGood ++ enc2 c.checkDrops ++ enc2 c.charErrorDrops ++ enc2 c.formatDrops
    ++ enc2 c.truncatedDrops ++ enc2 c.poolDrops ++ enc2 c.charErrors ++ enc2 c.framesSent

/-- R154: READ_COUNTERS. -/
def readCountersReply (s : State) (port : Nat) : Reply :=
  match portOfCode port with
  | none => Reply.bare statusBadValue
  | some p => Reply.ok (countersData p (s.port p).counters)

/-! ## READ_FAULTS (R135) -/

/-- R206: one fault record of the records part. -/
def recordData (r : FaultRecord) : List Byte :=
  enc1 r.kind.number ++ enc2 (sourceCode r.source) ++ enc1 r.classTaken.code ++ enc2 r.count ++ enc4 r.first
    ++ enc4 r.last ++ enc1 (boolCode r.queued + 2 * boolCode r.notified)

/-- R135: the records part from a list index; the layout holds one record. -/
def faultRecordsReply (f : FaultDispatch) (index : Nat) : Reply :=
  if 15 < index then Reply.bare statusBadRow
  else Reply.ok (enc1 f.list.length ++ enc2 f.overflow ++ ((f.list.drop index).take 1).flatMap recordData)

/-- R135: the counters part from a kind upward; the layout holds 14 counters. -/
def faultCountersReply (f : FaultDispatch) (kind : Nat) : Reply :=
  if kind < 1 ∨ 19 < kind then Reply.bare statusBadRow
  else Reply.ok (enc2 f.overflow ++ ((f.counters.drop (kind - 1)).take 14).flatMap enc2)

/-- R135: READ_FAULTS. -/
def readFaultsReply (s : State) (part index : Nat) : Reply :=
  match part with
  | 0 => faultRecordsReply s.faults index
  | 1 => faultCountersReply s.faults index
  | _ => Reply.bare statusBadValue

/-! ## READ_COIL (R105) -/

/-- R206: page 0 of a coil record. -/
def coilData (c : CoilRecord) : List Byte :=
  enc2 c.number ++ enc2 c.productId
    ++ enc1 (c.state.code + 8 * boolCode c.net + 16 * boolCode c.overdue + 32 * boolCode c.overlengthNoted)
    ++ enc1 (gradeCode c.grade) ++ enc4 c.length ++ enc4 c.start ++ enc2 (if c.net then c.rows else 0)
    ++ enc2 c.worstDeviation ++ enc2 c.driftWindows ++ enc1 c.defects.length ++ enc2 c.overflow
    ++ enc4 c.points ++ enc4 c.cutLag

/-- R206: page n of a coil record: one defect entry. -/
def defectData (e : Defect) : List Byte :=
  enc1 e.kind.number ++ enc4 e.offset ++ enc2 (sourceCode e.source) ++ enc4 e.extent ++ enc2 e.repeats
    ++ enc4 e.points

/-- R105: a page of a coil record; a page beyond the stored entries is OK with no entry. -/
def coilPage (c : CoilRecord) (page : Nat) : Reply :=
  if 24 < page then Reply.bare statusBadRow
  else if page = 0 then Reply.ok (coilData c)
  else Reply.ok (((c.defects.drop (page - 1)).take 1).flatMap defectData)

/-- R105: READ_COIL; record 255 is the open coil. -/
def readCoilReply (s : State) (record page : Nat) : Reply :=
  if record = 255 then coilPage s.coil.openCoil page
  else
    match s.coil.queue[record]? with
    | none => Reply.bare statusBadRow
    | some c => coilPage c page

/-! ## READ_MESH (R81) -/

/-- R206: page 0 of READ_MESH. The two characters of the expected row while UNSYNCED are a free value
(log 21). -/
def cursorData (s : State) : List Byte :=
  let c := s.mesh.cursor
  enc1 (boolCode s.mesh.active) ++ enc1 c.stepIndex.val ++ enc2 c.rowsDone ++ enc1 (boolCode c.held)
    ++ enc2 c.bandFirst ++ enc2 c.bandLast ++ enc1 c.taperCount ++ enc1 c.phase ++ enc1 (boolCode c.expected.isSome)
    ++ enc2 (c.expected.getD (Config.unsyncedExpectedRow s.freeDraws).toNat)
    ++ enc4 (c.pitchRef.getD 4294967295) ++ enc1 s.mesh.misses.length

/-- R206: page 1 of READ_MESH, in the order of R82. -/
def meshCountData (c : MeshCounts) : List Byte :=
  [c.rejectedRowdone, c.ignoredRows, c.duplicateRows, c.strayPositions, c.untrackedMisses, c.refusedTapers,
   c.refusedSteps].flatMap enc2

/-- R206: one entry of the miss table. -/
def missData (e : MissEntry) : List Byte := enc2 e.position ++ enc1 e.misses ++ enc1 (boolCode e.flagged)

/-- R206: pages 2 to 6 of READ_MESH. -/
def missPage (l : List MissEntry) (page : Nat) : List Byte :=
  enc1 l.length ++ ((l.drop (7 * (page - 2))).take 7).flatMap missData

/-- R81, R207: READ_MESH. -/
def readMeshReply (s : State) (page : Nat) : Reply :=
  if 6 < page then Reply.bare statusBadRow
  else
    match page with
    | 0 => Reply.ok (cursorData s)
    | 1 => Reply.ok (meshCountData s.mesh.counts)
    | n => Reply.ok (missPage s.mesh.misses n)

/-- R204: whether a READ_MESH page sends a free value: page 0 while UNSYNCED. -/
def readMeshDraws (s : State) (page : Nat) : Bool := page == 0 && s.mesh.cursor.expected.isNone

/-! ## READ_STATUS (R37, R174, R199) -/

/-- R206: page 0 of READ_STATUS. -/
def statusPage0 (s : State) : List Byte :=
  enc1 s.mode.code ++ enc1 s.ownAddress.toNat ++ enc1 s.coil.current.val ++ enc2 s.product.productId
    ++ enc1 (slotCode s.coil.next) ++ enc2 s.coil.refusedChangeovers ++ enc4 s.tally.haulTotal
    ++ enc4 s.tally.packedTotal ++ enc1 (boolCode s.tally.loaded) ++ enc1 s.freeForwarding
    ++ enc1 s.store.fqd.length ++ enc1 s.store.fqu.length ++ enc1 s.iqdHeld ++ enc1 s.iquHeld
    ++ enc1 (latchCode s.store.latchPending) ++ enc1 (latchCode s.store.latchInFlight)
    ++ enc1 (boolCode s.store.hold.isSome) ++ enc1 (boolCode s.portU.transmitter.isSome)
    ++ enc1 (boolCode s.portD.transmitter.isSome)

/-- R206: running, current and preset of a length counter. -/
def lengthCounterData (running : Bool) (current preset : Nat) : List Byte :=
  enc1 (boolCode running) ++ enc4 current ++ enc4 preset

/-- R206: page 1 of READ_STATUS. -/
def statusPage1 (t : Tally) : List Byte :=
  lengthCounterData t.coil.running t.coil.current t.coil.preset
    ++ lengthCounterData t.mark.running t.mark.current t.mark.preset
    ++ lengthCounterData t.window.running t.window.current t.window.preset

/-- R206: running, current and preset of a time counter. -/
def timeCounterData (c : OneShot) : List Byte := enc1 (boolCode c.running) ++ enc2 c.current ++ enc2 c.preset

/-- R206: page 2 of READ_STATUS. -/
def statusPage2 (t : Tally) : List Byte :=
  timeCounterData t.haulwatch ++ timeCounterData t.cutwait ++ enc4 t.coil.excess ++ enc2 t.haulwatch.excess
    ++ enc2 t.cutwait.excess ++ enc4 t.windowLength ++ enc2 t.mark.skipped ++ enc2 t.window.skipped

/-- R206: page 3 of READ_STATUS. -/
def statusPage3 (s : State) : List Byte :=
  [s.tally.haulTaken, s.tally.shortHaul, s.tally.clippedHaul, s.lay.rejectedTurns, s.lay.ignoredTurns,
   s.coil.rejectedFrames, s.coil.marksMissed, s.coil.takeOverruns, s.coil.nacksNotSent].flatMap enc2

/-- R206: page 4 of READ_STATUS, in the order of R190. -/
def statusPage4 (c : ClassifierCounts) : List Byte :=
  [c.unknownSources, c.unknownDestinations, c.consumed, c.unsupported, c.unsupportedNacksNotSent, c.blocked,
   c.shortSetpoints, c.haltedGos, c.queueDrops, c.clampedSetpoints, c.zeroedSetpoints].flatMap enc2

/-- R199, R207: READ_STATUS. -/
def readStatusReply (s : State) (page : Nat) : Reply :=
  match page with
  | 0 => Reply.ok (statusPage0 s)
  | 1 => Reply.ok (statusPage1 s.tally)
  | 2 => Reply.ok (statusPage2 s.tally)
  | 3 => Reply.ok (statusPage3 s)
  | 4 => Reply.ok (statusPage4 s.classifier)
  | _ => Reply.bare statusBadRow

end Sys2Proof.Machine
end

