-- ==== Sys2Proof/Machine/Modes.lean ====
section
/-! DEFINITION. The mode controller's requests: SET_MODE (R3 to R11) and RELEASE (R15). The requests of
fault dispatch and the CREEP exit examination stand in Dispatcher.lean. -/

namespace Sys2Proof.Machine

/-- R8, R30, R63, R84: the effects of an entry to THREADING from PARKED. With the tally-loaded flag
clear the open coil takes its product, the length counters are preset, and an immediate COIL underflow
is handed on after the presets (R26). -/
def enterThreading (s : State) : State :=
  let s := enterThreadingMesh (enterThreadingHeads { s with mode := .threading })
  if s.tally.loaded then s else handImmediate (presetAll (setOpenProduct s))

/-- R9: entry to RUN. -/
def enterRun (s : State) : State := presetHaulwatch { s with mode := .run }

/-- R10: the return to THREADING from RUN or CREEP. -/
def returnToThreading (s : State) : State := stopHaulwatch { s with mode := .threading }

/-- R11: entry to PARKED. -/
def enterParked (s : State) : State := { s with mode := .parked }

/-- R3, R4: SET_MODE THREADING in PARKED. -/
def tryThreading (s : State) : State × Reply :=
  match s.examineAll with
  | some failure => (s, Reply.invalidTable failure)
  | none => (enterThreading s, Reply.ok [])

/-- R3: SET_MODE PARKED by the mode in force. -/
def setModeParked (s : State) : State × Reply :=
  match s.mode with
  | .parked => (s, Reply.ok [])
  | .threading => (enterParked s, Reply.ok [])
  | .halted => (enterParked s, Reply.ok [])
  | .run => (s, Reply.bare statusNotInMode)
  | .creep => (s, Reply.bare statusNotInMode)

/-- R3: SET_MODE THREADING by the mode in force. -/
def setModeThreading (s : State) : State × Reply :=
  match s.mode with
  | .parked => tryThreading s
  | .threading => (s, Reply.ok [])
  | .run => (returnToThreading s, Reply.ok [])
  | .creep => (returnToThreading s, Reply.ok [])
  | .halted => (s, Reply.bare statusNotInMode)

/-- R3: SET_MODE RUN by the mode in force. -/
def setModeRun (s : State) : State × Reply :=
  match s.mode with
  | .threading => (enterRun s, Reply.ok [])
  | .run => (s, Reply.ok [])
  | .parked => (s, Reply.bare statusNotInMode)
  | .creep => (s, Reply.bare statusNotInMode)
  | .halted => (s, Reply.bare statusNotInMode)

/-- R3: SET_MODE. -/
def setModeRequest (target : Nat) (s : State) : State × Reply :=
  match Mode.ofCode target with
  | some .parked => setModeParked s
  | some .threading => setModeThreading s
  | some .run => setModeRun s
  | some .creep => (s, Reply.bare statusBadValue)
  | some .halted => (s, Reply.bare statusBadValue)
  | none => (s, Reply.bare statusBadValue)

/-- R15: the effects of an accepted RELEASE. -/
def releaseLine (s : State) : State := releaseMesh (releaseHeads { s with mode := .threading })

/-- R15: RELEASE in HALTED. -/
def releaseRequest (s : State) : State × Reply :=
  if s.hasRecordOfClass .halt then (s, Reply.refusedFor refusedFaultsPending)
  else if s.latchHoldsHalt then (s, Reply.refusedFor refusedHaltPending)
  else (releaseLine s, Reply.ok [])

end Sys2Proof.Machine
end

