-- ==== Sys2Proof/Machine/Manage.lean ====
section
/-! DEFINITION. The management responder (R192 to R202) and the management request hold (R170 to R172):
the checks of a request, its carrying out, its reply, and the request commands. -/

namespace Sys2Proof.Machine

/-! ## Requests carried out -/

/-- R196: WRITE_FIELDS. A write to the hold threshold sets the HOLD-OUT level anew (R197). -/
def writeFieldsRequest (table row : Nat) (pairs : List (Byte × BitVec 32)) (s : State) : State × Reply :=
  match TableName.ofCode table with
  | none => (s, Reply.bare statusBadValue)
  | some t =>
    if t.hasRow row then
      match s.writeRefusal t row with
      | some status => (s, Reply.bare status)
      | none =>
        match s.tables.writeRow t row pairs with
        | none => (s, Reply.bare statusBadValue)
        | some tables =>
          let s' := { s with tables := tables }
          (if t = .line ∧ pairs.any (fun p => p.1 = 3) then s'.setHoldOut else s', Reply.ok [])
    else (s, Reply.bare statusBadRow)

/-- R110: SET_PRODUCT, after the mode check of R193. -/
def setProductRequest (slot : Nat) (s : State) : State × Reply :=
  if slot < 8 then
    if s.coil.openCoil.state ≠ .opened ∨ 0 < s.coil.openCoil.length then (s, Reply.bare statusBusy)
    else
      match examineProduct s.tables (Fin.ofNat 8 slot) with
      | some failure => (s, Reply.invalidTable failure)
      | none => (productStart (Fin.ofNat 8 slot) s, Reply.ok [])
  else (s, Reply.bare statusBadRow)

/-- R113: SET_NEXT, after the mode check of R193; 255 is none (R206). -/
def setNextRequest (slot : Nat) (s : State) : State × Reply :=
  if slot = 255 then ({ s with coil.next := none }, Reply.ok [])
  else if slot < 8 then
    match examineProduct s.tables (Fin.ofNat 8 slot) with
    | some failure => (s, Reply.invalidTable failure)
    | none => ({ s with coil.next := some (Fin.ofNat 8 slot) }, Reply.ok [])
  else (s, Reply.bare statusBadRow)

/-- R93: CUT. -/
def cutManually (s : State) : State × Reply :=
  if s.mayCut then (manualCut s, Reply.ok []) else (s, Reply.bare statusBusy)

/-- R131: the record of a kind and source removed, and the CREEP exit examination run. -/
def clearFaultRequest (kind source : Nat) (s : State) : State × Reply :=
  match FaultKind.ofNumber kind with
  | none => (s, Reply.bare statusBadValue)
  | some k =>
    let src := sourceOfCode k source
    if s.faults.list.any (fun r => r.isOf k src) then
      (creepExit { s with faults.list := s.faults.list.filter (fun r => !r.isOf k src) }, Reply.ok [])
    else (s, Reply.bare statusNotFound)

/-- R132: CLEAR_ALL. -/
def clearAllRequest (s : State) : State × Reply := (creepExit { s with faults.list := [] }, Reply.ok [])

/-- R154: CLEAR_COUNTERS. -/
def clearCountersRequest (s : State) : State × Reply :=
  ({ s with portU.counters := PortCounters.cleared, portD.counters := PortCounters.cleared }, Reply.ok [])

/-- R200: SET_ADDRESS, after the mode check of R193. The checks are made in the order of R200, also where the
new address is the own address in force and its row is in use: R200 answers BUSY at step 3 and says
afterwards that the own address is accepted; the model takes step 3, and so BUSY (log 34, the model's choice). -/
def setAddressRequest (a : Nat) (s : State) : State × Reply :=
  if a = 0 ∨ 127 < a then (s, Reply.bare statusBadValue)
  else if a = 127 then (s, Reply.bare statusBusy)
  else if (s.tables.station a).role ≠ .unused then (s, Reply.bare statusBusy)
  else (s, { status := statusOk, data := [], mark := .newAddress (BitVec.ofNat 7 a) })

/-- R202: RESET; its effect waits for the departure of its reply. -/
def resetRequested (s : State) : State × Reply := (s, { status := statusOk, data := [], mark := .resetReply })

/-- R81: READ_MESH; a free value sent has been drawn (log 21). -/
def readMeshRequest (page : Nat) (s : State) : State × Reply :=
  (if readMeshDraws s page then s.drawn else s, readMeshReply s page)

/-- R194: whether a request is available in a mode; WRITE_FIELDS goes by its table (R195). -/
def Request.availableIn : Request → Mode → Bool
  | .setProduct _, m => m = .parked
  | .setNext _, m => m ≠ .parked
  | .release, m => m = .halted
  | .setAddress _, m => m = .parked
  | .reset, m => m = .parked
  | .readRow _ _ _, _ => true
  | .writeFields _ _ _, _ => true
  | .setMode _, _ => true
  | .cut, _ => true
  | .clearFault _ _, _ => true
  | .clearAll, _ => true
  | .readFaults _ _, _ => true
  | .readCoil _ _, _ => true
  | .readHead _, _ => true
  | .readMesh _, _ => true
  | .readStatus _, _ => true
  | .readCounters _, _ => true
  | .clearCounters, _ => true

/-- R193 step 4: a request carried out by its own rule. -/
def carryOut (r : Request) (s : State) : State × Reply :=
  match r with
  | .readRow t row page => (s, readRowReply s t.toNat row.toNat page.toNat)
  | .writeFields t row pairs => writeFieldsRequest t.toNat row.toNat pairs s
  | .setMode target => setModeRequest target.toNat s
  | .setProduct slot => setProductRequest slot.toNat s
  | .setNext slot => setNextRequest slot.toNat s
  | .release => releaseRequest s
  | .cut => cutManually s
  | .clearFault k src => clearFaultRequest k.toNat src.toNat s
  | .clearAll => clearAllRequest s
  | .readFaults part index => (s, readFaultsReply s part.toNat index.toNat)
  | .readCoil record page => (s, readCoilReply s record.toNat page.toNat)
  | .readHead unit => (s, readHeadReply s unit.toNat)
  | .readMesh page => readMeshRequest page.toNat s
  | .readStatus page => (s, readStatusReply s page.toNat)
  | .readCounters port => (s, readCountersReply s port.toNat)
  | .clearCounters => clearCountersRequest s
  | .setAddress a => setAddressRequest a.toNat s
  | .reset => resetRequested s

/-- R193: a payload checked and carried out, with its reply. -/
def perform (payload : List Byte) (s : State) : State × Reply :=
  match parseRequest payload with
  | none => (s, Reply.bare statusBadRequest)
  | some r => if r.availableIn s.mode then carryOut r s else (s, Reply.bare statusNotInMode)

/-! ## Taking, holding and dropping (R163, R170 to R172, R192) -/

/-- R163: the IQU entry of the reply reserved. -/
def reserveEntry (s : State) : State := { s with store.reserved := true }

/-- R163, R192: the MREP built in the reserved entry and queued. -/
def queueReply (dst : Addr) (r : Reply) (s : State) : State :=
  { s.queueIqu (s.originate dst .mrep (r.status :: r.data)) r.mark with store.reserved := false }

/-- R192: a request taken: the entry reserved, the request performed, the reply queued. -/
def takeRequest (f : Frame) (s : State) : State :=
  let result := perform f.payload (reserveEntry s)
  queueReply f.src result.2 result.1

/-- R170, R171: an MREQ handed to management, in the slot of its arrival. A held MREQ keeps that slot. -/
def handMreq (f : Frame) (s : State) : State :=
  if s.store.hold.isSome then raise .mgmtOverrun (some f.src.toNat) 1 0 s
  else if s.iquRoom then takeRequest f s
  else { s with store.hold := some f, store.arriving := false }

/-- R172: the held request taken; the hold's slot is released at the end of the taking. -/
def takeHeld (s : State) : State :=
  match s.store.hold with
  | none => s
  | some f => { takeRequest f s with store.hold := none }.setHoldOut

/-! ## The slot of an arrival (R144, R146, R158) -/

/-- R158: the end of an arrival: the frame's slot is released if nothing took it, and the HOLD-OUT
level is set anew. -/
def endArrival (s : State) : State := { s with store.arriving := false }.setHoldOut

/-- The frame of a command that names an arrival, or the MREQ of a request, came in a forwarding slot
that its port's receiver was granted; with none free it is lost as a pool drop (R144; logs 3 and 4). -/
def withSlot (p : Port) (body : State → State) (s : State) : State :=
  if s.freeForwarding = 0 then s.countPort p (fun c => { c with poolDrops := bump c.poolDrops })
  else endArrival (body { s with store.arriving := true })

/-- The MREQ that carries a request to the part (R206). -/
def mreqFrame (s : State) (src : Addr) (payload : List Byte) : Frame :=
  { dst := s.ownAddress, src := src, kind := FrameKind.mreq.code, payload := payload }

/-- An MREQ from `src` handed to management on a port. It is the classified arrival of that MREQ: a good
frame of the port (R146, R153) and a consumed frame (R180), both counted before it is taken (R154; logs 4
and 12). -/
def mreqReceived (p : Port) (src : Addr) (payload : List Byte) (s : State) : State :=
  withSlot p (fun granted => handMreq (mreqFrame s src payload) (granted.frameConsumed p)) s

/-- A request from `src`: its MREQ handed to management on Port U (log 4). -/
def requestMade (src : Addr) (r : Request) (s : State) : Host.Outcome State Fault Refusal :=
  .next (whenWorking s (mreqReceived .u src r.encode))

/-! ## Commands -/

/-- MREQ (R170). -/
def execMreq (p : Port) (src : Addr) (payload : List Byte) (s : State) : Host.Outcome State Fault Refusal :=
  .next (whenWorking s (mreqReceived p src payload))

/-- READ_ROW (R198). -/
def execReadRow (src : Addr) (table : Byte) (row : BitVec 16) (page : Byte) (s : State) :
    Host.Outcome State Fault Refusal := requestMade src (.readRow table row page) s

/-- WRITE_FIELDS (R196). -/
def execWriteFields (src : Addr) (table : Byte) (row : BitVec 16) (pairs : List (Byte × BitVec 32)) (s : State) :
    Host.Outcome State Fault Refusal := requestMade src (.writeFields table row pairs) s

/-- SET_MODE (R3). -/
def execSetMode (src : Addr) (target : Byte) (s : State) : Host.Outcome State Fault Refusal :=
  requestMade src (.setMode target) s

/-- SET_PRODUCT (R110). -/
def execSetProduct (src : Addr) (slot : Byte) (s : State) : Host.Outcome State Fault Refusal :=
  requestMade src (.setProduct slot) s

/-- SET_NEXT (R113). -/
def execSetNext (src : Addr) (slot : Byte) (s : State) : Host.Outcome State Fault Refusal :=
  requestMade src (.setNext slot) s

/-- RELEASE (R15). -/
def execRelease (src : Addr) (s : State) : Host.Outcome State Fault Refusal := requestMade src .release s

/-- CUT (R93). -/
def execCut (src : Addr) (s : State) : Host.Outcome State Fault Refusal := requestMade src .cut s

/-- CLEAR_FAULT (R131). -/
def execClearFault (src : Addr) (kind : Byte) (source : BitVec 16) (s : State) : Host.Outcome State Fault Refusal :=
  requestMade src (.clearFault kind source) s

/-- CLEAR_ALL (R132). -/
def execClearAll (src : Addr) (s : State) : Host.Outcome State Fault Refusal := requestMade src .clearAll s

/-- READ_FAULTS (R135). -/
def execReadFaults (src : Addr) (part index : Byte) (s : State) : Host.Outcome State Fault Refusal :=
  requestMade src (.readFaults part index) s

/-- READ_COIL (R105). -/
def execReadCoil (src : Addr) (record page : Byte) (s : State) : Host.Outcome State Fault Refusal :=
  requestMade src (.readCoil record page) s

/-- READ_HEAD (R56). -/
def execReadHead (src : Addr) (unit : Byte) (s : State) : Host.Outcome State Fault Refusal :=
  requestMade src (.readHead unit) s

/-- READ_MESH (R81). -/
def execReadMesh (src : Addr) (page : Byte) (s : State) : Host.Outcome State Fault Refusal :=
  requestMade src (.readMesh page) s

/-- READ_STATUS (R199). -/
def execReadStatus (src : Addr) (page : Byte) (s : State) : Host.Outcome State Fault Refusal :=
  requestMade src (.readStatus page) s

/-- READ_COUNTERS (R154). -/
def execReadCounters (src : Addr) (port : Byte) (s : State) : Host.Outcome State Fault Refusal :=
  requestMade src (.readCounters port) s

/-- CLEAR_COUNTERS (R154). -/
def execClearCounters (src : Addr) (s : State) : Host.Outcome State Fault Refusal := requestMade src .clearCounters s

/-- SET_ADDRESS (R200). -/
def execSetAddress (src : Addr) (address : Byte) (s : State) : Host.Outcome State Fault Refusal :=
  requestMade src (.setAddress address) s

/-- RESET (R202). -/
def execReset (src : Addr) (s : State) : Host.Outcome State Fault Refusal := requestMade src .reset s

end Sys2Proof.Machine
end

