-- ==== Sys2Proof/Machine/Classifier.lean ====
section
/-! DEFINITION. The classifier (R176 to R186): the six stages an arrival goes through. -/

namespace Sys2Proof.Machine

/-! ## Rows -/

/-- R181: whether the station map holds a row of role MASTER. -/
def Tables.hasMaster (t : Tables) : Bool := t.stations.any (fun row => row.role = .master)

/-! ## Frames for the LK36 (R180 to R182) -/

/-- R182: a NACK queued toward the port the refused frame arrived on, or counted as not sent. -/
def nackUnsupportedFrame (p : Port) (f : Frame) (s : State) : State :=
  if s.injectionRoom p then s.queueToward p (s.originate f.src .nack [f.kind, nackUnsupported])
  else s.countClassifier (fun c => { c with unsupportedNacksNotSent := bump c.unsupportedNacksNotSent })

/-- R180: an unsupported frame counted. -/
def countUnsupported (s : State) : State :=
  s.countClassifier (fun c => { c with unsupported := bump c.unsupported })

/-- R180: an unsupported frame counted and answered with NACK. -/
def refuseFrame (p : Port) (f : Frame) (s : State) : State := nackUnsupportedFrame p f (countUnsupported s)

/-- R180: an MREQ for the LK36 by the role of its source. -/
def ownMreq (role : Role) (f : Frame) (s : State) : State :=
  if role = .master then handMreq f (countConsumed s) else raise .foreignMgmt (some f.src.toNat) 1 0 s

/-- R180: a frame for the LK36, by its kind and the role of its source. -/
def forOwn (p : Port) (role : Role) (f : Frame) (s : State) : State :=
  match FrameKind.ofCode f.kind with
  | .mreq => ownMreq role f s
  | .cutdone => if role = .cutter then cutdoneReceived f.payload (countConsumed s) else refuseFrame p f s
  | .take => if role = .packer then takeReceived (countConsumed s) else refuseFrame p f s
  | .packed => if role = .packer then packedReceived f.src f.payload (countConsumed s) else refuseFrame p f s
  | .nack => countUnsupported s
  | .mrep => countUnsupported s
  | .alarm => countUnsupported s
  | .poll => refuseFrame p f s
  | .turns => refuseFrame p f s
  | .haul => refuseFrame p f s
  | .rowdone => refuseFrame p f s
  | .setpt => refuseFrame p f s
  | .halt => refuseFrame p f s
  | .creep => refuseFrame p f s
  | .go => refuseFrame p f s
  | .cutreq => refuseFrame p f s
  | .mark => refuseFrame p f s
  | .label => refuseFrame p f s
  | .other => refuseFrame p f s

/-! ## Tap, route, action, placing (R183 to R186) -/

/-- R183: the tap of a frame by its kind and its source's row. -/
def tap (row : StationRow) (f : Frame) (s : State) : State :=
  match FrameKind.ofCode f.kind, row.role with
  | .turns, .head => turnsReceived row.unit f.payload s
  | .haul, .hauloff => haulReceived f.payload s
  | .rowdone, .knotter => rowdoneReceived f.payload s
  | _, _ => s

/-- R184: the port toward which a frame goes; none for an unknown destination. -/
def State.route (s : State) (p : Port) (dst : Addr) : Option Port :=
  if dst = 127 then
    match p with
    | .u => some .d
    | .d => some .u
  else if (s.stationOf dst).role = .unused then none
  else some (s.stationOf dst).side

/-- R186: the destination role recorded with a downstream SETPT; a broadcast has none. -/
def State.recordedRole (s : State) (toward : Port) (f : Frame) : Option Role :=
  if toward = .d ∧ FrameKind.ofCode f.kind = .setpt ∧ f.dst ≠ 127 then some (s.stationOf f.dst).role else none

/-- R160, R186: a forwarded frame placed at the end of its forward queue with what is recorded with
it; it keeps its slot. A full queue drops it. -/
def place (toward : Port) (action : Action) (f : Frame) (s : State) : State :=
  let entry : FwdFrame := { frame := f, action := action, destRole := s.recordedRole toward f }
  let dropped := s.countClassifier (fun c => { c with queueDrops := bump c.queueDrops })
  match toward with
  | .d =>
    if s.store.fqd.length < 16 then { s with store.fqd := s.store.fqd ++ [entry], store.arriving := false } else dropped
  | .u =>
    if s.store.fqu.length < 16 then { s with store.fqu := s.store.fqu ++ [entry], store.arriving := false } else dropped

/-- R186: cases 2 to 5, for a kind with a row in the action table. -/
def actByEntry (toward : Port) (entry : Action) (f : Frame) (s : State) : State :=
  if entry = .block then s.countClassifier (fun c => { c with blocked := bump c.blocked })
  else if toward = .d ∧ FrameKind.ofCode f.kind = .setpt ∧ f.payload.length < 2 then
    s.countClassifier (fun c => { c with shortSetpoints := bump c.shortSetpoints })
  else if toward = .d ∧ FrameKind.ofCode f.kind = .go ∧ s.mode = .halted then
    s.countClassifier (fun c => { c with haltedGos := bump c.haltedGos })
  else place toward entry f s

/-- R186: the action stage. HALT, CREEP and MREQ have no row and are forwarded. -/
def act (toward : Port) (f : Frame) (s : State) : State :=
  match (FrameKind.ofCode f.kind).actionRow with
  | none => place toward .forward f s
  | some row => actByEntry toward (s.tables.action row toward) f s

/-- R184, R186: the route stage and what follows it. -/
def routeAndAct (p : Port) (f : Frame) (s : State) : State :=
  match s.route p f.dst with
  | none => s.countClassifier (fun c => { c with unknownDestinations := bump c.unknownDestinations })
  | some toward => act toward f s

/-! ## Classification (R178, R179, R181) -/

/-- R181: an MREQ to the own address on Port U while the map holds no MASTER row. -/
def State.openMreq (s : State) (p : Port) (f : Frame) : Bool :=
  !s.tables.hasMaster && p = .u && FrameKind.ofCode f.kind = .mreq && f.dst = s.ownAddress

/-- R179 to R186: a frame that passed the source check. -/
def classifyKnown (p : Port) (row : StationRow) (f : Frame) (s : State) : State :=
  if f.dst = s.ownAddress then forOwn p row.role f s else routeAndAct p f (tap row f s)

/-- R178, R179, R181: the classification of a good frame that arrived on a port. -/
def classify (p : Port) (f : Frame) (s : State) : State :=
  let row := s.stationOf f.src
  if s.openMreq p f then handMreq f (countConsumed s)
  else if row.role = .unused then
    s.countClassifier (fun c => { c with unknownSources := bump c.unknownSources })
  else if row.side ≠ p then raise .misplacedStation (some f.src.toNat) 1 0 s
  else classifyKnown p row f s

/-- R146, R153: an arrival in its slot: counted in frames good, classified. -/
def arrive (p : Port) (f : Frame) (s : State) : State :=
  classify p f (s.frameCounted p)

/-! ## Commands -/

/-- ARRIVAL (R178). -/
def execArrival (p : Port) (f : Frame) (s : State) : Host.Outcome State Fault Refusal :=
  .next (whenWorking s (withSlot p (arrive p f)))

end Sys2Proof.Machine
end

