-- ==== Sys2Proof/Machine/Resets.lean ====
section
/-! DEFINITION. The three kinds of reset (R18, R36, R59, R83, R107, R120, R136, R155, R156, R175, R191,
R202, R203). The levels of the input pins, the count of free values drawn and the waiting commands
are not the part's to reset (log 24). -/

namespace Sys2Proof.Machine

/-- R203: the state a power-up sets. -/
def powerUpState (s : State) : State :=
  { State.reset with
    portU := PortState.cleared s.portU.holdIn
    portD := PortState.cleared s.portD.holdIn
    resetIn := s.resetIn
    freeDraws := s.freeDraws
    pending := s.pending }

/-- R203: the state a pin reset sets: as a power-up, the loaded tables kept. -/
def pinResetState (s : State) : State := { powerUpState s with tables := s.tables }

/-- R107: the open coil after a RESET request: a coil in cut returns to OPEN. -/
def CoilRecord.afterResetRequest (c : CoilRecord) : CoilRecord := { c with state := .opened }

/-- R107, R120: the coil job after a RESET request. -/
def CoilJob.afterResetRequest (c : CoilJob) : CoilJob :=
  { CoilJob.cleared with
    openCoil := c.openCoil.afterResetRequest
    queue := c.queue
    counter := c.counter
    current := c.current
    next := c.next }

/-- R36: the length tally after a RESET request: the totals kept; the current values of COIL, HAULWATCH and CUTWAIT are
0, where R27, R32 and R33 speak of keeping them (log 35). -/
def Tally.afterResetRequest (t : Tally) : Tally :=
  { Tally.cleared with haulTotal := t.haulTotal, packedTotal := t.packedTotal }

/-- R202: the effect of a RESET request at the departure of its reply. -/
def resetRequestEffect (s : State) : State :=
  { pinResetState s with
    ownAddress := s.ownAddress
    tally := s.tally.afterResetRequest
    coil := s.coil.afterResetRequest }

/-! ## Commands -/

/-- POWER_UP (R203). -/
def execPowerUp (s : State) : Host.Outcome State Fault Refusal := .next (powerUpState s)

/-- PIN_RESET (R203): the RESET input is asserted. -/
def execPinReset (s : State) : Host.Outcome State Fault Refusal := .next { pinResetState s with resetIn := true }

/-- PIN_RESET_RELEASE (R203): the RESET input is released; operation begins from the state held. -/
def execPinResetRelease (s : State) : Host.Outcome State Fault Refusal := .next { s with resetIn := false }

end Sys2Proof.Machine
end

