-- ==== Sys2Proof/Machine/Ports.lean ====
section
/-! DEFINITION. The line ports (R138 to R156) and the arbiters (R164 to R169, R187 to R189): received
characters, HOLD-IN, transmit starts and departures. -/

namespace Sys2Proof.Machine

/-! ## The receiver (R142 to R147) -/

/-- R153: one count of a port increased. -/
def countCharError (p : Port) (s : State) : State :=
  s.countPort p (fun c => { c with charErrors := bump c.charErrors })

/-- R143, R145: a format drop counted. -/
def countFormatDrop (p : Port) (s : State) : State :=
  s.countPort p (fun c => { c with formatDrops := bump c.formatDrops })

/-- R145: the frame being assembled is dropped: the slot released, the receiver in SKIP. -/
def abandonFrame (p : Port) (s : State) : State := (s.setReceiver p .skip).setHoldOut

/-- R143, R144, R147: a good marked character in HUNT or SKIP. -/
def headerReceived (p : Port) (v : Byte) (s : State) : State :=
  if 127 < v.toNat then (countFormatDrop p s).setReceiver p .skip
  else if s.freeForwarding = 0 then
    (s.countPort p (fun c => { c with poolDrops := bump c.poolDrops })).setReceiver p .skip
  else (s.setReceiver p (.fill [v])).setHoldOut

/-- R145 case 2: a marked character in FILL truncates the frame and heads a new one in its slot. -/
def truncateFrame (p : Port) (v : Byte) (s : State) : State :=
  let s := s.countPort p (fun c => { c with truncatedDrops := bump c.truncatedDrops })
  if 127 < v.toNat then abandonFrame p (countFormatDrop p s) else s.setReceiver p (.fill [v])

/-- R145 case 3: a format fault at position 2 or 4. -/
def formatFault (stored : List Byte) (v : Byte) : Bool :=
  (stored.length = 1 && 127 < v.toNat) || (stored.length = 3 && 32 < v.toNat)

/-- R145: the expected total of a frame, once the length character has been stored. -/
def expectedTotal (stored : List Byte) : Option Nat := (stored[3]?).map (fun n => 6 + n.toNat)

/-- R146: whether the check characters match the check of the stored contents. -/
def checkMatches (stored : List Byte) : Bool :=
  numberOf (stored.drop (stored.length - 2)) = (frameCheck (stored.take (stored.length - 2))).toNat

/-- R146: a complete frame: dropped on a mismatch of its check, an arrival on a match. -/
def frameComplete (p : Port) (stored : List Byte) (s : State) : State :=
  let s := s.setReceiver p .hunt
  if checkMatches stored then endArrival (arrive p (frameOf stored) { s with store.arriving := true })
  else (s.countPort p (fun c => { c with checkDrops := bump c.checkDrops })).setHoldOut

/-- R145 case 4: a character stored at the next position. -/
def storeCharacter (p : Port) (stored : List Byte) (s : State) : State :=
  if expectedTotal stored = some stored.length then frameComplete p stored s else s.setReceiver p (.fill stored)

/-- R145: a character in FILL without error. -/
def fillReceived (p : Port) (stored : List Byte) (c : LineChar) (s : State) : State :=
  if c.mark then truncateFrame p c.value s
  else if formatFault stored c.value then abandonFrame p (countFormatDrop p s)
  else storeCharacter p (stored ++ [c.value]) s

/-- R139, R143, R145, R147: a character error in the receiver's state. -/
def errorReceived (p : Port) (s : State) : State :=
  let s := countCharError p s
  match (s.port p).receiver with
  | .hunt => s.setReceiver p .skip
  | .skip => s
  | .fill _ => abandonFrame p (s.countPort p (fun c => { c with charErrorDrops := bump c.charErrorDrops }))

/-- R143, R145, R147: a character without error in the receiver's state. -/
def goodReceived (p : Port) (c : LineChar) (s : State) : State :=
  match (s.port p).receiver with
  | .hunt => if c.mark then headerReceived p c.value s else s
  | .skip => if c.mark then headerReceived p c.value s else s
  | .fill stored => fillReceived p stored c s

/-- R142: a received character, handled whole. -/
def characterReceived (p : Port) (c : LineChar) (s : State) : State :=
  if isCharError (s.parityOn p) c then errorReceived p s else goodReceived p c s

/-! ## Setpoints at the Port D transmit start (R187, R188) -/

/-- R188: the creep limit of a destination role. -/
def creepLimit (l : LineSettings) : Option Role → Option Nat
  | some .head => some l.creepHead
  | some .hauloff => some l.creepHaul
  | _ => none

/-- R188: the product maximum of a destination role. -/
def productLimit (p : ProductRow) : Option Role → Option Nat
  | some .head => some p.maxHeadSpeed
  | some .hauloff => some p.maxHaulSpeed
  | _ => none

/-- R187: a setpoint lowered to a limit, if there is one. -/
def lowered (limit : Option Nat) (v : Nat) : Nat :=
  match limit with
  | some l => min v l
  | none => v

/-- R187: the limit that a clamp applies in the mode in force. -/
def State.clampLimit (s : State) (r : Option Role) : Option Nat :=
  match s.mode with
  | .parked => none
  | .threading => creepLimit s.tables.line r
  | .run => productLimit s.product r
  | .creep => creepLimit s.tables.line r
  | .halted => none

/-- R187: the setpoint with which a SETPT leaves. -/
def State.setpointOut (s : State) (e : FwdFrame) (v : Nat) : Nat :=
  if s.mode = .halted then 0
  else if e.action = .clamp then lowered (s.clampLimit e.destRole) v
  else v

/-- R187: a frame with its setpoint replaced; the check follows the contents (R141). -/
def withSetpoint (f : Frame) (v : Nat) : Frame := { f with payload := enc2 v ++ f.payload.drop 2 }

/-- R187: a changed setpoint counted: zeroed in HALTED, clamped otherwise. -/
def countSetpoint (s : State) : State :=
  if s.mode = .halted then s.countClassifier (fun c => { c with zeroedSetpoints := bump c.zeroedSetpoints })
  else s.countClassifier (fun c => { c with clampedSetpoints := bump c.clampedSetpoints })

/-- R187: the frame a SETPT of FQD leaves as, and the count. -/
def rewriteSetpoint (e : FwdFrame) (s : State) : Frame × State :=
  let v := numberAt e.frame.payload 1 2
  let v' := s.setpointOut e v
  if v' = v then (e.frame, s) else (withSetpoint e.frame v', countSetpoint s)

/-- R161, R187: the frame an entry of FQD leaves as. -/
def leaveFqd (e : FwdFrame) (s : State) : Frame × State :=
  if FrameKind.ofCode e.frame.kind = .setpt then rewriteSetpoint e s else (e.frame, s)

/-! ## Transmit starts (R149, R165 to R167) -/

/-- R148, R149: a frame moved into a port's holding stage, with the parity setting of the moment (R138). -/
def startFrame (p : Port) (f : Frame) (o : Origin) (s : State) : State :=
  s.setTransmitter p (some { frame := f, origin := o, parity := s.parityOn p, released := false })

/-- R165: the speed command frame. -/
def speedFrame (s : State) (c : SpeedCommand) : Frame := s.originate 127 c.frameKind []

/-- R164, R166: the latch taken at a Port D transmit start. -/
def startLatch (c : SpeedCommand) (s : State) : State :=
  startFrame .d (speedFrame s c) .latch { s with store.latchInFlight := some c, store.latchPending := none }

/-- R189: whether a frame of FQD is withdrawn at its transmit start. -/
def State.withdraws (s : State) (e : FwdFrame) : Bool := s.mode = .halted && FrameKind.ofCode e.frame.kind = .go

/-- R166, R189: the oldest frame of FQD that is not withdrawn is started; each GO withdrawn before it
releases its slot and is counted. -/
def startFqd : List FwdFrame → State → State
  | [], s => { s with store.fqd := [] }
  | e :: rest, s =>
    if s.withdraws e then
      startFqd rest ({ s with store.fqd := rest }.countClassifier (fun c => { c with haltedGos := bump c.haltedGos })).setHoldOut
    else
      let left := leaveFqd e { s with store.fqd := rest }
      startFrame .d left.1 .forwarded left.2

/-- R166: the Port D arbiter. -/
def arbiterD (s : State) : State :=
  match s.store.latchPending with
  | some c => startLatch c s
  | none =>
    match s.store.iqd with
    | e :: rest => startFrame .d e.frame (.injected e.mark) { s with store.iqd := rest }
    | [] => startFqd s.store.fqd s

/-- R167: the Port U arbiter. -/
def arbiterU (s : State) : State :=
  match s.store.iqu with
  | e :: rest => startFrame .u e.frame (.injected e.mark) { s with store.iqu := rest }
  | [] =>
    match s.store.fqu with
    | e :: rest => startFrame .u e.frame .forwarded { s with store.fqu := rest }
    | [] => s

/-- R149: a transmit start: taken when the transmitter is IDLE, HOLD-IN is released and the arbiter has
a frame. -/
def transmitStarts (p : Port) (s : State) : State :=
  if (s.port p).transmitter.isSome || (s.port p).holdIn then s
  else
    match p with
    | .d => arbiterD s
    | .u => arbiterU s

/-! ## Departures (R150, R168, R169) -/

/-- R168 step 1, R169 step 1: what the departing frame held is released. -/
def releaseDeparted (p : Port) (h : Holding) (s : State) : State :=
  let s := s.setTransmitter p (some { h with released := true })
  match h.origin with
  | .forwarded => s.setHoldOut
  | .injected _ => s
  | .latch => { s with store.latchInFlight := none }

/-- R33, R168 step 2: the departure of a CUTREQ, the part's own or a forwarded one (log 14), reported to the
length tally with the coil number it carries. -/
def cutreqDeparted (f : Frame) (s : State) : State :=
  if FrameKind.ofCode f.kind = .cutreq ∧ 2 ≤ f.payload.length ∧ s.answers (numberAt f.payload 1 2) then
    presetCutwait s
  else s

/-- R168 steps 2 and 3: a departure on Port D reported on. -/
def departedD (h : Holding) (s : State) : State :=
  match h.origin with
  | .injected _ => iqdDeparted (cutreqDeparted h.frame s)
  | .forwarded => cutreqDeparted h.frame s
  | .latch => s

/-- R169 steps 2 and 3, but for the reply of a RESET request: the own address, the marking of a record. -/
def reportMark (m : InjMark) (s : State) : State :=
  match m with
  | .newAddress a => { s with ownAddress := a }
  | .alarm identity => markNotified identity s
  | .plain => s
  | .resetReply => s

/-- R169 steps 2 to 5 for an IQU frame but the reply of a RESET request. -/
def departedInjU (m : InjMark) (s : State) : State := sendAlarms (takeHeld (reportMark m s))

/-- R150 step 3: the holding stage emptied. -/
def emptyStage (p : Port) (s : State) : State := s.setTransmitter p none

/-- R150, R169: the departure of a frame on Port U once released. The reply of a RESET request makes the
reset take effect, and the later steps are not made (R202). -/
def finishU (h : Holding) (s : State) : State :=
  match h.origin with
  | .injected .resetReply => resetRequestEffect s
  | .injected m => emptyStage .u (departedInjU m s)
  | .forwarded => emptyStage .u s
  | .latch => emptyStage .u s

/-- R150: the last character of a frame leaves the shifter. -/
def departs (p : Port) (h : Holding) (s : State) : State :=
  let s := releaseDeparted p h (s.countPort p (fun c => { c with framesSent := bump c.framesSent }))
  match p with
  | .d => emptyStage .d (departedD h s)
  | .u => finishU h s

/-- R150: a departure on a port, if its transmitter is SENDING. -/
def departure (p : Port) (s : State) : State :=
  match (s.port p).transmitter with
  | none => s
  | some h => departs p h s

/-! ## HOLD-IN (R151) -/

/-- R151: the level of a port's HOLD-IN line. -/
def setHoldIn (p : Port) (level : Bool) (s : State) : State := s.setPort p { s.port p with holdIn := level }

/-! ## Commands -/

/-- CHARACTER_RECEIVED (R142). -/
def execCharacterReceived (p : Port) (c : LineChar) (s : State) : Host.Outcome State Fault Refusal :=
  .next (whenWorking s (characterReceived p c))

/-- HOLD_IN_ASSERTED (R151): the line is the segment's, also while the part is held in reset. -/
def execHoldInAsserted (p : Port) (s : State) : Host.Outcome State Fault Refusal := .next (setHoldIn p true s)

/-- HOLD_IN_RELEASED (R151): a transmit start is taken at once if one can be. -/
def execHoldInReleased (p : Port) (s : State) : Host.Outcome State Fault Refusal :=
  .next (whenWorking (setHoldIn p false s) (transmitStarts p))

/-- TRANSMIT_START (R149). -/
def execTransmitStart (p : Port) (s : State) : Host.Outcome State Fault Refusal :=
  .next (whenWorking s (transmitStarts p))

/-- DEPARTURE (R150). -/
def execDeparture (p : Port) (s : State) : Host.Outcome State Fault Refusal := .next (whenWorking s (departure p))

end Sys2Proof.Machine
end

