-- ==== Sys2Proof/Machine/Dispatch.lean ====
section
/-! DEFINITION. The dispatch of a command to its meaning: one arm per row of spec/opcode_table.json. -/

namespace Sys2Proof.Machine

/-- The effect of a command on everything but the queue of waiting commands. -/
def exec (i : Instr) (s : State) : Host.Outcome State Fault Refusal :=
  match i with
  -- resets
  | .powerUp => Sys2Proof.Machine.execPowerUp s
  | .pinReset => Sys2Proof.Machine.execPinReset s
  | .pinResetRelease => Sys2Proof.Machine.execPinResetRelease s
  -- ports and classifier
  | .characterReceived p c => Sys2Proof.Machine.execCharacterReceived p c s
  | .arrival p f => Sys2Proof.Machine.execArrival p f s
  -- tapped reports and consumed frames
  | .turns unit payload => Sys2Proof.Machine.execTurns unit payload s
  | .haul payload => Sys2Proof.Machine.execHaul payload s
  | .rowdone payload => Sys2Proof.Machine.execRowdone payload s
  | .cutdone payload => Sys2Proof.Machine.execCutdone payload s
  | .take payload => Sys2Proof.Machine.execTake payload s
  | .packed src payload => Sys2Proof.Machine.execPacked src payload s
  -- management
  | .mreq p src payload => Sys2Proof.Machine.execMreq p src payload s
  | .readRow src table row page => Sys2Proof.Machine.execReadRow src table row page s
  | .writeFields src table row pairs => Sys2Proof.Machine.execWriteFields src table row pairs s
  | .setMode src target => Sys2Proof.Machine.execSetMode src target s
  | .setProduct src slot => Sys2Proof.Machine.execSetProduct src slot s
  | .setNext src slot => Sys2Proof.Machine.execSetNext src slot s
  | .release src => Sys2Proof.Machine.execRelease src s
  | .cut src => Sys2Proof.Machine.execCut src s
  | .clearFault src kind source => Sys2Proof.Machine.execClearFault src kind source s
  | .clearAll src => Sys2Proof.Machine.execClearAll src s
  | .readFaults src part index => Sys2Proof.Machine.execReadFaults src part index s
  | .readCoil src record page => Sys2Proof.Machine.execReadCoil src record page s
  | .readHead src unit => Sys2Proof.Machine.execReadHead src unit s
  | .readMesh src page => Sys2Proof.Machine.execReadMesh src page s
  | .readStatus src page => Sys2Proof.Machine.execReadStatus src page s
  | .readCounters src port => Sys2Proof.Machine.execReadCounters src port s
  | .clearCounters src => Sys2Proof.Machine.execClearCounters src s
  | .setAddress src address => Sys2Proof.Machine.execSetAddress src address s
  | .reset src => Sys2Proof.Machine.execReset src s
  -- time base and underflows
  | .timeBaseExpiry => Sys2Proof.Machine.execTimeBaseExpiry s
  | .haulwatchUnderflow => Sys2Proof.Machine.execHaulwatchUnderflow s
  | .cutwaitUnderflow => Sys2Proof.Machine.execCutwaitUnderflow s
  | .coilUnderflow amount => Sys2Proof.Machine.execCoilUnderflow amount s
  | .markUnderflow amount => Sys2Proof.Machine.execMarkUnderflow amount s
  | .windowEnd amount => Sys2Proof.Machine.execWindowEnd amount s
  -- hold lines and transmitters
  | .holdInAsserted p => Sys2Proof.Machine.execHoldInAsserted p s
  | .holdInReleased p => Sys2Proof.Machine.execHoldInReleased p s
  | .transmitStart p => Sys2Proof.Machine.execTransmitStart p s
  | .departure p => Sys2Proof.Machine.execDeparture p s

end Sys2Proof.Machine
end

