-- ==== Sys2Proof/Safety.lean ====
section
/-! DEFINITION. The invariants the manual states of the block's state between events: the frame store and
HOLD-OUT, the haul balance, the coils, the heads, the mode and the latch, the fault list, the ranges of
the loaded tables, the mesh monitor. -/

namespace Sys2Proof.Machine

/-! ## Frame store (R152, R157 to R163, R170) -/

/-- Between events no arrival is in progress, no entry is reserved and no departure is in progress
(R150, R157, R163). -/
def State.AtRest (s : State) : Prop :=
  s.store.arriving = false ∧ s.store.reserved = false
    ∧ (∀ h, s.portU.transmitter = some h → h.released = false)
    ∧ (∀ h, s.portD.transmitter = some h → h.released = false)

/-- R157, R159, R160: the queues, the injection entries and the forwarding slots within their numbers;
R170: the hold is occupied only while all 4 IQU entries are held. -/
def State.StoreBounded (s : State) : Prop :=
  s.AtRest ∧ s.store.fqd.length ≤ 16 ∧ s.store.fqu.length ≤ 16 ∧ s.iqdHeld ≤ 4 ∧ s.iquHeld ≤ 4
    ∧ s.heldForwarding ≤ 24 ∧ (s.store.hold.isSome = true → s.iquHeld = 4)

/-- R152: the hold threshold is at most 12 and HOLD-OUT is asserted exactly while the free forwarding
slots are at or below it. -/
def State.HoldOutFollows (s : State) : Prop :=
  s.store.arriving = false ∧ s.tables.line.holdThreshold ≤ 12
    ∧ (s.holdOut = true ↔ s.freeForwarding ≤ s.tables.line.holdThreshold)

/-! ## When a command finds the part ready -/

/-- Between events, with the RESET input released (R203). -/
def State.Ready (s : State) : Prop := s.resetIn = false ∧ s.AtRest

/-- R144, R152: a frame that comes now is granted a forwarding slot. -/
def State.TakesFrames (s : State) : Prop := s.Ready ∧ 0 < s.freeForwarding ∧ s.HoldOutFollows

/-- R163, R170: a management request that comes now is taken at once. -/
def State.TakesRequests (s : State) : Prop := s.TakesFrames ∧ s.store.hold = none ∧ s.iquHeld < 4

/-- R153, R180, R192: the state with a request's MREQ counted on Port U and its MREP of these payload
characters queued on IQU. -/
def State.answered (s : State) (dst : Addr) (reply : List Byte) : State :=
  (s.frameConsumed .u).queueIqu (s.originate dst .mrep reply) .plain

/-! ## Haul balance (R19, R86) -/

/-- The length of the coils not yet packed: the queue's and the open coil's. -/
def State.unpackedLength (s : State) : Nat := (s.coil.queue.map CoilRecord.length).sum + s.coil.openCoil.length

/-- R19: the haul total is the packed total and the lengths of all coils; R86: less the open coil's start
it is the open coil's length. -/
def State.HaulBalanced (s : State) : Prop :=
  s.tally.haulTotal = s.tally.packedTotal + s.unpackedLength
    ∧ s.tally.haulTotal = s.coil.openCoil.start + s.coil.openCoil.length
    ∧ s.tally.haulTotal ≤ 2147483647

/-! ## Coils (R84, R85, R100) -/

/-- The states of an open coil record (R84). -/
def CoilState.isOpen : CoilState → Bool
  | .opened => true
  | .cutWaitRoom => true
  | .cutWaitSend => true
  | .cutting => true
  | .closed => false
  | .labelled => false

/-- The states in which a cut is requested and the queue is known to have room (R84). -/
def CoilState.cutRequested : CoilState → Bool
  | .cutWaitSend => true
  | .cutting => true
  | .opened => false
  | .cutWaitRoom => false
  | .closed => false
  | .labelled => false

/-- R85: every LABELLED record stands before every CLOSED record. -/
def labelledFirst (l : List CoilRecord) : Prop :=
  l.Pairwise (fun a b => b.state = .labelled → a.state = .labelled)

/-- R85: coil numbers run on from record to record, and the open coil has the next one. -/
def numbersRun : List CoilRecord → Prop
  | [] => True
  | [_] => True
  | a :: b :: rest => b.number = nextNumber a.number ∧ numbersRun (b :: rest)

/-- R84, R85, R100: the coil queue and the open coil. -/
def State.CoilsOrdered (s : State) : Prop :=
  s.coil.queue.length ≤ 16
    ∧ s.coil.openCoil.state.isOpen = true
    ∧ (s.coil.openCoil.state.cutRequested = true → s.coil.queue.length < 16)
    ∧ (∀ r ∈ s.coil.queue, r.state.isOpen = false)
    ∧ labelledFirst s.coil.queue
    ∧ numbersRun (s.coil.queue ++ [s.coil.openCoil])
    ∧ s.coil.counter = s.coil.openCoil.number
    ∧ 1 ≤ s.coil.counter ∧ s.coil.counter ≤ 65535
    ∧ (s.tally.cutwait.running = true → s.coil.openCoil.state = .cutting)

/-! ## Heads (R39), mode and latch (R17, R32, R165) -/

/-- R39, R123: a head is BROKEN only in HALTED or PARKED, at most one is, and STRAND_BREAK holds HALT. -/
def State.BreakHalts (s : State) : Prop :=
  s.tables.faultClass .strandBreak = .halt ∧ s.lay.heads.length = 24
    ∧ (∀ u, (s.head u).state = .broken → s.mode = .halted ∨ s.mode = .parked)
    ∧ (∀ u v, (s.head u).state = .broken → (s.head v).state = .broken → u = v)

/-- R17, R32: HAULWATCH runs only in RUN and CREEP; R165: no GO is pending in HALTED. -/
def State.ModeAgrees (s : State) : Prop :=
  (s.tally.haulwatch.running = true → s.mode = .run ∨ s.mode = .creep)
    ∧ (s.mode = .halted → s.store.latchPending ≠ some .go)

/-! ## Fault list (R125, R126, R129) -/

/-- The identity of the record that an entry's ALARM was built for. -/
def InjMark.alarmIdentity : InjMark → Option Nat
  | .alarm i => some i
  | .plain => none
  | .newAddress _ => none
  | .resetReply => none

/-- The identity of the record whose ALARM stands in a transmitter. -/
def Holding.alarmIdentity (h : Holding) : Option Nat :=
  match h.origin with
  | .injected m => if h.released then none else m.alarmIdentity
  | .forwarded => none
  | .latch => none

/-- R125: the records whose ALARM stands in IQU or in the Port U transmitter. -/
def State.alarmsOut (s : State) : List Nat :=
  (s.portU.transmitter.bind Holding.alarmIdentity).toList ++ s.store.iqu.filterMap (fun e => e.mark.alarmIdentity)

/-- R125, R129: the fault list. -/
def State.FaultsListed (s : State) : Prop :=
  s.faults.list.length ≤ 16
    ∧ s.faults.counters.length = 19
    ∧ (s.faults.list.map (fun r => (r.kind, r.source))).Nodup
    ∧ (s.faults.list.map FaultRecord.identity).Nodup
    ∧ (∀ r ∈ s.faults.list, r.classTaken ≠ .note ∧ r.identity < s.faults.nextIdentity
        ∧ (r.queued = true ↔ r.identity ∈ s.alarmsOut) ∧ ¬(r.queued = true ∧ r.notified = true))
    ∧ s.alarmsOut.Nodup
    ∧ (∀ i ∈ s.alarmsOut, i < s.faults.nextIdentity)

/-! ## Ranges of the loaded tables (R195) -/

/-- R195: the line settings. -/
def LineSettings.InRange (l : LineSettings) : Prop :=
  1 ≤ l.holdThreshold ∧ l.holdThreshold ≤ 12 ∧ 10 ≤ l.haulWatch ∧ l.haulWatch ≤ 60000
    ∧ 10 ≤ l.cutWait ∧ l.cutWait ≤ 60000 ∧ l.creepHaul ≤ 65535 ∧ l.creepHead ≤ 65535

/-- R195: a product row. -/
def ProductRow.InRange (p : ProductRow) : Prop :=
  1 ≤ p.productId ∧ p.productId ≤ 65535 ∧ 1 ≤ p.strandCount ∧ p.strandCount ≤ 8
    ∧ 5 ≤ p.runTolerance ∧ p.runTolerance ≤ 200 ∧ 5 ≤ p.threadTolerance ∧ p.threadTolerance ≤ 500
    ∧ 1 ≤ p.breakFilter ∧ p.breakFilter ≤ 8 ∧ p.tensionFloor ≤ 1023
    ∧ 100 ≤ p.coilTarget ∧ p.coilTarget ≤ 10000000 ∧ p.cutLead ≤ 65535 ∧ p.overlengthLimit ≤ 65535
    ∧ (p.markInterval = 0 ∨ 100 ≤ p.markInterval) ∧ p.markInterval ≤ 65535
    ∧ 50 ≤ p.layWindow ∧ p.layWindow ≤ 65535 ∧ p.maxHaulSpeed ≤ 65535 ∧ p.maxHeadSpeed ≤ 65535
    ∧ p.rowPitch ≤ 65535 ∧ p.pitchTolerance ≤ 1000 ∧ 2 ≤ p.needleLimit ∧ p.needleLimit ≤ 15
    ∧ p.gradeB ≤ 65535 ∧ p.gradeC ≤ 65535 ∧ p.rejectAt ≤ 65535

/-- R195: a lay row. -/
def LayRow.InRange (r : LayRow) : Prop :=
  1 ≤ r.targetLay ∧ r.targetLay ≤ 20000 ∧ 1000 ≤ r.takeUp ∧ r.takeUp ≤ 2000

/-- R195: a mesh pattern row. -/
def MeshRow.InRange (r : MeshRow) : Prop :=
  1 ≤ r.rows ∧ r.rows ≤ 4095 ∧ r.first ≤ 511 ∧ r.last ≤ 511 ∧ -2 ≤ r.widenLeft ∧ r.widenLeft ≤ 2
    ∧ -2 ≤ r.widenRight ∧ r.widenRight ≤ 2 ∧ 1 ≤ r.taperEvery ∧ r.taperEvery ≤ 255
    ∧ r.selvedgeWidth ≤ 8 ∧ r.selvedgeCode ≤ 15

/-- R123, R185, R195: the rows of every table, their ranges, CLAMP in row 8 of the action table only, HALT in
the rows of STRAND_BREAK and COIL_OVERLENGTH. -/
structure Tables.InRange (t : Tables) : Prop where
  line : t.line.InRange
  stationCount : t.stations.length = 128
  actionCount : t.actions.length = 32
  clampAlone : ∀ i, i ≠ 8 → t.actions[i]? ≠ some .clamp
  productCount : t.products.length = 8
  products : ∀ p ∈ t.products, p.InRange
  layCount : t.lays.length = 192
  lays : ∀ r ∈ t.lays, r.InRange
  meshCount : t.mesh.length = 64
  mesh : ∀ r ∈ t.mesh, r.InRange
  classCount : t.faultClasses.length = 19
  breakHalts : t.faultClass .strandBreak = .halt
  overlengthHalts : t.faultClass .coilOverlength = .halt

/-! ## Mesh monitor (R60, R62, R70, R74) -/

/-- R60, R62: INACTIVE, the cursor and the miss table are empty; UNSYNCED, the pitch reference is none.
R70: ACTIVE, the band is valid. R74: the miss table holds at most 32 entries, of distinct positions
within the band, each of 1 to 255 misses. -/
def Mesh.Sound (m : Mesh) : Prop :=
  (m.active = false → m.cursor = Cursor.cleared ∧ m.misses = [])
    ∧ (m.active = true → m.cursor.bandFirst ≤ m.cursor.bandLast ∧ m.cursor.bandLast ≤ 511)
    ∧ (m.cursor.expected = none → m.cursor.pitchRef = none)
    ∧ m.misses.length ≤ 32 ∧ (m.misses.map MissEntry.position).Nodup
    ∧ (∀ e ∈ m.misses, m.cursor.bandFirst ≤ e.position ∧ e.position ≤ m.cursor.bandLast
        ∧ 1 ≤ e.misses ∧ e.misses ≤ 255)

/-- The tables in range and the mesh monitor sound. -/
def State.MeshSound (s : State) : Prop := s.tables.InRange ∧ s.mesh.Sound

end Sys2Proof.Machine
end

