-- ==== Sys2Proof/Certificates/Slice0/Obligations.lean ====
section
/-! DEFINITION. The statements about the LK36 for the provers: what each command does, from the numbered
rules, and the invariants every step keeps. -/

open Sys2Proof Sys2Proof.Machine

/-! ## Steps -/

/-- A step takes the front command and runs it with the queue's rest; on an empty queue the block idles. Both are
the model's choice (log 1). -/
def Obligations.StepRunsFrontCommand : Prop :=
  (∀ (c : Instr) (rest : List Instr) (s : State), s.pending = c :: rest →
    step s = exec c { s with pending := rest })
  ∧ (∀ s : State, s.pending = [] → step s = .next s)

/-- Every command completes and leaves the waiting commands alone. -/
def Obligations.EveryCommandCompletes : Prop :=
  ∀ (c : Instr) (s : State), ∃ t, exec c s = .next t ∧ t.pending = s.pending

/-! ## Resets and lines -/

/-- The state the manual gives after power-up: mode and address, the contents of the seven tables, and every block
cleared, its counters stopped and its counts 0. The input pins are released, which is the model's choice (log 9), and
the model's own fields are empty (logs 1, 7 and 11). The counters' values are those of R36 (log 35). -/
def Obligations.ResetValues : Prop :=
  let stopped : OneShot := { running := false, current := 0, preset := 0, excess := 0 }
  let still : Repeating := { running := false, current := 0, preset := 0, skipped := 0 }
  let t := State.reset.tables
  State.reset.mode = .parked ∧ State.reset.ownAddress = 120
    ∧ t.line = { parityU := false, parityD := false, holdThreshold := 4, haulWatch := 500, cutWait := 2000,
                 creepHaul := 20, creepHead := 300 }
    ∧ (∀ a, a < 128 → t.station a = { role := .unused, unit := 0, side := .u })
    ∧ (∀ k toward, k < 16 → t.action k toward = if k = 4 ∧ toward = .d then .clamp else .forward)
    ∧ (∀ slot, t.product slot =
        { valid := false, productId := 1, kind := .twineNet, strandCount := 1, runTolerance := 5,
          threadTolerance := 5, breakFilter := 1, tensionFloor := 0, coilTarget := 100, cutLead := 0,
          overlengthLimit := 0, markInterval := 0, layWindow := 50, maxHaulSpeed := 0, maxHeadSpeed := 0,
          startStep := 0, rowPitch := 0, pitchTolerance := 0, needleLimit := 2, gradeB := 0, gradeC := 0,
          rejectAt := 0 })
    ∧ (∀ slot u, t.layRow slot u = { inUse := false, direction := .s, targetLay := 1, takeUp := 1000 })
    ∧ (∀ i, t.meshRow i =
        { valid := false, rows := 1, first := 0, last := 0, widenLeft := 0, widenRight := 0, taperEvery := 1,
          selvedgeWidth := 0, selvedgeCode := 0, next := none })
    ∧ (∀ k : FaultKind, t.faultClass k = match k with
        | .strandBreak | .haulSilent | .coilOverlength => .halt
        | .needleFault | .queueFull => .creep
        | .layDrift | .missingKnot | .rowPitch | .cutUnexpected | .mgmtOverrun => .note
        | .headStale | .missTrackFull | .rowGap | .haulReverse | .cutterSilent | .cutMismatch | .misplacedStation
        | .foreignMgmt | .packOrder => .alarm)
    ∧ State.reset.tally = { haulTotal := 0, packedTotal := 0, coil := stopped, mark := still, window := still
                            windowLength := 0, haulwatch := stopped, cutwait := stopped, loaded := false
                            haulTaken := 0, shortHaul := 0, clippedHaul := 0 }
    ∧ (∀ u, State.reset.head u =
        { state := .unused, windowSum := 0, reports := 0, lastTension := 0, lowRun := 0, lastStrands := 0,
          lastLay := 0, lastDeviation := 0, driftWindows := 0 })
    ∧ State.reset.lay.rejectedTurns = 0 ∧ State.reset.lay.ignoredTurns = 0
    ∧ State.reset.mesh.active = false ∧ State.reset.mesh.misses = []
    ∧ State.reset.mesh.cursor = { stepIndex := 0, rowsDone := 0, held := false, bandFirst := 0, bandLast := 0
                                  taperCount := 0, phase := 0, expected := none, pitchRef := none }
    ∧ State.reset.mesh.counts = { rejectedRowdone := 0, ignoredRows := 0, duplicateRows := 0, strayPositions := 0
                                  untrackedMisses := 0, refusedTapers := 0, refusedSteps := 0 }
    ∧ State.reset.coil.openCoil =
        { number := 1, productId := 0, net := false, state := .opened, length := 0, start := 0, rows := 0,
          worstDeviation := 0, driftWindows := 0, defects := [], overflow := 0, overflowPoints := 0, points := 0,
          grade := none, cutLag := 0, overdue := false, overlengthNoted := false }
    ∧ State.reset.coil = { openCoil := State.reset.coil.openCoil, queue := [], counter := 1, current := 0, next := none
                           pendingTake := false, rejectedFrames := 0, marksMissed := 0, takeOverruns := 0
                           nacksNotSent := 0, refusedChangeovers := 0 }
    ∧ State.reset.faults = { list := [], counters := List.replicate 19 0, overflow := 0, nextIdentity := 0 }
    ∧ (∀ p, State.reset.port p =
        { receiver := .hunt, transmitter := none, holdIn := false
          counters := { framesGood := 0, checkDrops := 0, charErrorDrops := 0, formatDrops := 0, truncatedDrops := 0
                        poolDrops := 0, charErrors := 0, framesSent := 0 } })
    ∧ State.reset.store = { fqd := [], fqu := [], iqd := [], iqu := [], latchPending := none, latchInFlight := none
                            hold := none, arriving := false, reserved := false }
    ∧ State.reset.freeForwarding = 24 ∧ State.reset.iqdHeld = 0 ∧ State.reset.iquHeld = 0
    ∧ State.reset.holdOut = false
    ∧ State.reset.classifier =
        { unknownSources := 0, unknownDestinations := 0, consumed := 0, unsupported := 0
          unsupportedNacksNotSent := 0, blocked := 0, shortSetpoints := 0, haltedGos := 0, queueDrops := 0
          clampedSetpoints := 0, zeroedSetpoints := 0 }
    ∧ State.reset.resetIn = false ∧ State.reset.freeDraws = 0 ∧ State.reset.pending = []

/-- R203: a power-up sets the reset state; a pin reset sets it too but keeps the loaded tables. The levels of
the input pins and the model's own fields stay (logs 9 and 24); the counters of the tally are at 0 (log 35). While the
RESET input is asserted the part holds its state; the input's release changes nothing else. The HOLD-IN levels are the
segment's and follow it even then (log 9). -/
def Obligations.ResetsAndTheResetLine : Prop :=
  (∀ s : State,
    exec .powerUp s = .next { State.reset with
      portU := PortState.cleared s.portU.holdIn, portD := PortState.cleared s.portD.holdIn
      resetIn := s.resetIn, freeDraws := s.freeDraws, pending := s.pending }
    ∧ exec .pinReset s = .next { State.reset with
      tables := s.tables
      portU := PortState.cleared s.portU.holdIn, portD := PortState.cleared s.portD.holdIn
      resetIn := true, freeDraws := s.freeDraws, pending := s.pending }
    ∧ exec .pinResetRelease s = .next { s with resetIn := false })
  ∧ (∀ (c : Instr) (s : State), s.resetIn = true → c ≠ .powerUp → c ≠ .pinReset → c ≠ .pinResetRelease →
    (∀ p, c ≠ .holdInAsserted p) → (∀ p, c ≠ .holdInReleased p) → exec c s = .next s)
  ∧ (∀ (p : Port) (s : State), s.resetIn = true →
    exec (.holdInReleased p) s = .next (s.setPort p { s.port p with holdIn := false }))

/-- R151, R149: HOLD-IN acts on the port's transmit starts alone: its release takes a transmit start at once where
one can be taken, leaves the port sending where it sends, and leaves it idle where no frame is offered; none is
taken while the line is asserted or a frame is being sent. -/
def Obligations.HoldInGatesTransmitStarts : Prop :=
  ∀ (p : Port) (s : State),
    let released := s.setPort p { s.port p with holdIn := false }
    let offered := match p with
      | .d => s.store.latchPending.isSome = true ∨ s.store.iqd ≠ [] ∨ s.store.fqd ≠ []
      | .u => s.store.iqu ≠ [] ∨ s.store.fqu ≠ []
    exec (.holdInAsserted p) s = .next (s.setPort p { s.port p with holdIn := true })
    ∧ (s.resetIn = false → exec (.holdInReleased p) s = exec (.transmitStart p) released
        ∧ ∃ t, exec (.holdInReleased p) s = .next t ∧ (t.port p).holdIn = false)
    ∧ (s.resetIn = false → (s.port p).transmitter.isSome = true → exec (.holdInReleased p) s = .next released)
    ∧ (s.resetIn = false → ¬offered → exec (.holdInReleased p) s = .next released)
    ∧ ((s.port p).holdIn = true ∨ (s.port p).transmitter.isSome = true → exec (.transmitStart p) s = .next s)

/-! ## Characters and frames -/

/-- R143, R147: a character in HUNT or SKIP. -/
def Obligations.HuntAndSkipCharacters : Prop :=
  ∀ (p : Port) (c : LineChar) (s : State), s.resetIn = false →
    ((s.port p).receiver = .hunt ∨ (s.port p).receiver = .skip) →
    let bad := c.stop = false ∨ (s.parityOn p = true ∧ (onesOf c.value + c.mark.toNat + c.parity.toNat) % 2 = 1)
    (bad → exec (.characterReceived p c) s =
      .next ((s.countPort p (fun k => { k with charErrors := bump k.charErrors })).setReceiver p .skip))
    ∧ (¬bad → c.mark = false → exec (.characterReceived p c) s = .next s)
    ∧ (¬bad → c.mark = true → 127 < c.value.toNat → exec (.characterReceived p c) s =
        .next ((s.countPort p (fun k => { k with formatDrops := bump k.formatDrops })).setReceiver p .skip))
    ∧ (¬bad → c.mark = true → c.value.toNat ≤ 127 → s.freeForwarding = 0 → exec (.characterReceived p c) s =
        .next ((s.countPort p (fun k => { k with poolDrops := bump k.poolDrops })).setReceiver p .skip))
    ∧ (¬bad → c.mark = true → c.value.toNat ≤ 127 → 0 < s.freeForwarding → exec (.characterReceived p c) s =
        .next (s.setReceiver p (.fill [c.value])).setHoldOut)

/-- R145, R146: a character in FILL: an error, a mark, a format fault, a character stored, a complete frame
with a wrong check, a good frame. A good frame is stated as the ARRIVAL command of that frame on a receiver in HUNT,
a command whose count and slot are the model's choice (log 3). -/
def Obligations.FillCharacters : Prop :=
  ∀ (p : Port) (c : LineChar) (s : State) (l : List Byte), s.resetIn = false → s.StoreBounded →
    (s.port p).receiver = .fill l →
    let bad := c.stop = false ∨ (s.parityOn p = true ∧ (onesOf c.value + c.mark.toNat + c.parity.toNat) % 2 = 1)
    let fault := (l.length = 1 ∧ 127 < c.value.toNat) ∨ (l.length = 3 ∧ 32 < c.value.toNat)
    let now := l ++ [c.value]
    let complete := 4 ≤ now.length ∧ now.length = 6 + (now.getD 3 0).toNat
    let good := numberOf (now.drop (now.length - 2)) = (frameCheck (now.take (now.length - 2))).toNat
    (bad → exec (.characterReceived p c) s = .next ((s.countPort p (fun k =>
        { k with charErrors := bump k.charErrors, charErrorDrops := bump k.charErrorDrops })).setReceiver p .skip).setHoldOut)
    ∧ (¬bad → c.mark = true → c.value.toNat ≤ 127 → exec (.characterReceived p c) s = .next ((s.countPort p (fun k =>
        { k with truncatedDrops := bump k.truncatedDrops })).setReceiver p (.fill [c.value])))
    ∧ (¬bad → c.mark = true → 127 < c.value.toNat → exec (.characterReceived p c) s = .next ((s.countPort p (fun k =>
        { k with truncatedDrops := bump k.truncatedDrops, formatDrops := bump k.formatDrops })).setReceiver p .skip).setHoldOut)
    ∧ (¬bad → c.mark = false → fault → exec (.characterReceived p c) s = .next ((s.countPort p (fun k =>
        { k with formatDrops := bump k.formatDrops })).setReceiver p .skip).setHoldOut)
    ∧ (¬bad → c.mark = false → ¬fault → ¬complete →
        exec (.characterReceived p c) s = .next (s.setReceiver p (.fill now)))
    ∧ (¬bad → c.mark = false → ¬fault → complete → ¬good → exec (.characterReceived p c) s = .next ((s.countPort p (fun k =>
        { k with checkDrops := bump k.checkDrops })).setReceiver p .hunt).setHoldOut)
    ∧ (¬bad → c.mark = false → ¬fault → complete → good →
        exec (.characterReceived p c) s = exec (.arrival p (frameOf now)) (s.setReceiver p .hunt))

/-- R138, R140, R141, R148: the characters of a frame position by position, the check last, high character first. Sent,
the first is marked and the rest are not, each with its stop element and, with parity on, the even parity bit. They are
read back whole by the receiver's rules, with a matching check and without a character error. -/
def Obligations.FrameCharactersReadBack : Prop :=
  ∀ f : Frame, f.payload.length ≤ 32 →
    let n := f.payload.length
    let sent := frameCharacters f
    let check := (frameCheck (sent.take (4 + n))).toNat
    sent[0]? = some (f.dst.setWidth 8) ∧ sent[1]? = some (f.src.setWidth 8) ∧ sent[2]? = some f.kind
      ∧ sent[3]? = some (BitVec.ofNat 8 n) ∧ (∀ i, i < n → sent[4 + i]? = f.payload[i]?)
      ∧ sent[4 + n]? = some (BitVec.ofNat 8 (check / 256)) ∧ sent[5 + n]? = some (BitVec.ofNat 8 check)
      ∧ frameOf (frameCharacters f) = f ∧ checkMatches (frameCharacters f) = true
      ∧ (frameCharacters f).length = 6 + f.payload.length
      ∧ expectedTotal (frameCharacters f) = some (frameCharacters f).length
      ∧ (∀ h : Holding, h.frame = f → (h.lineChars.map LineChar.value = frameCharacters f
          ∧ h.lineChars.map LineChar.mark = true :: List.replicate (5 + n) false
          ∧ ∀ c ∈ h.lineChars, isCharError h.parity c = false ∧ c.stop = true
              ∧ (h.parity = true → (onesOf c.value + c.mark.toNat + c.parity.toNat) % 2 = 0)))

/-- R141, R204: the check as it is computed, its example, the order its characters are sent in, and the
numbers that payload characters hold. -/
def Obligations.CheckOfNineDigits : Prop :=
  let shifted (reg : BitVec 16) (bit : Bool) : BitVec 16 :=
    if bit = reg.getLsbD 15 then reg <<< 1 else (reg <<< 1) ^^^ 4129#16
  frameCheck [49, 50, 51, 52, 53, 54, 55, 56, 57] = 10673 ∧ enc2 10673 = [41, 177]
  ∧ frameCheck [] = 65535
  ∧ (∀ (l : List Byte) (b : Byte), frameCheck (l ++ [b]) =
      [7, 6, 5, 4, 3, 2, 1, 0].foldl (fun reg i => shifted reg (b.getLsbD i)) (frameCheck l))
  ∧ (∀ b : Byte, onesOf b = ([0, 1, 2, 3, 4, 5, 6, 7].map (fun i => (b.getLsbD i).toNat)).sum)
  ∧ (∀ n, enc1 n = [BitVec.ofNat 8 n] ∧ enc2 n = [BitVec.ofNat 8 (n / 256), BitVec.ofNat 8 n]
      ∧ enc4 n = enc2 (n / 65536) ++ enc2 n)
  ∧ (∀ (before after : List Byte) (a b : Byte),
      numberAt (before ++ a :: after) (before.length + 1) 1 = a.toNat
      ∧ numberAt (before ++ a :: b :: after) (before.length + 1) 2 = 256 * a.toNat + b.toNat)
  ∧ (∀ n : Nat, signedOf 2 n = (if n < 32768 then (n : Int) else (n : Int) - 65536)
      ∧ signedOf 4 n = if n < 2147483648 then (n : Int) else (n : Int) - 4294967296)

/-- R193, R206, R207: the payload of a request, character by character, is read back as the request, every parameter at
every value, characters beyond its parameters disregarded and a missing page read as 0; and every payload that is no
request. R122, R185, R204 to R206: the codes of the enumerations, fault kinds, frame kinds and tables, and the kind rows
of the action table. -/
def Obligations.RequestReadBack : Prop :=
  (∀ r : Request, r.encode = match r with
    | .readRow table row page => [1, table] ++ enc2 row.toNat ++ [page]
    | .writeFields table row pairs =>
      [2, table] ++ enc2 row.toNat ++ enc1 pairs.length ++ pairs.flatMap (fun q => [q.1] ++ enc4 q.2.toNat)
    | .setMode target => [3, target]
    | .setProduct slot => [4, slot]
    | .setNext slot => [5, slot]
    | .release => [6]
    | .cut => [7]
    | .clearFault kind source => [8, kind] ++ enc2 source.toNat
    | .clearAll => [9]
    | .readFaults part index => [10, part, index]
    | .readCoil record page => [11, record, page]
    | .readHead unit => [12, unit]
    | .readMesh page => [13, page]
    | .readStatus page => [14, page]
    | .readCounters port => [15, port]
    | .clearCounters => [16]
    | .setAddress a => [17, a]
    | .reset => [18])
  ∧ (∀ (r : Request) (extra : List Byte),
    (∀ t row ps, r = .writeFields t row ps → ps ≠ [] ∧ ps.length ≤ 5 ∧ (ps.map Prod.fst).Nodup) →
    parseRequest (r.encode ++ extra) = some r)
  ∧ (∀ (t : Byte) (row : BitVec 16), parseRequest ([1, t] ++ enc2 row.toNat) = some (.readRow t row 0))
  ∧ parseRequest [13] = some (.readMesh 0) ∧ parseRequest [14] = some (.readStatus 0)
  ∧ parseRequest [] = none
  ∧ (∀ (code : Byte) (rest : List Byte), code = 0 ∨ 18 < code.toNat → parseRequest (code :: rest) = none)
  ∧ (∀ (code : Byte) (needed : Nat) (rest : List Byte),
      (code, needed) ∈ [((1 : Byte), 3), (2, 4), (3, 1), (4, 1), (5, 1), (8, 3), (10, 2), (11, 2), (12, 1), (15, 1), (17, 1)] →
      rest.length < needed → parseRequest (code :: rest) = none)
  ∧ (∀ (t a b count : Byte) (rest : List Byte),
      count = 0 ∨ 5 < count.toNat ∨ rest.length < 5 * count.toNat → parseRequest (2 :: t :: a :: b :: count :: rest) = none)
  ∧ (∀ (t : Byte) (row : BitVec 16) (ps : List (Byte × BitVec 32)) (extra : List Byte), ps.length ≤ 5 →
      ¬(ps.map Prod.fst).Nodup → parseRequest ((Request.writeFields t row ps).encode ++ extra) = none)
  ∧ [Mode.parked, .threading, .run, .creep, .halted].map Mode.code = [0, 1, 2, 3, 4]
  ∧ [Role.unused, .master, .head, .knotter, .hauloff, .cutter, .packer, .other].map Role.code = [0, 1, 2, 3, 4, 5, 6, 7]
  ∧ [Action.forward, .clamp, .block].map Action.code = [0, 1, 2]
  ∧ [FaultClass.note, .alarm, .creep, .halt].map FaultClass.code = [0, 1, 2, 3]
  ∧ [ProductKind.twineNet, .rope].map ProductKind.code = [0, 1] ∧ [Direction.s, .z].map Direction.code = [0, 1]
  ∧ [HeadState.unused, .settling, .tracking, .drift, .stale, .broken].map HeadState.code = [0, 1, 2, 3, 4, 5]
  ∧ [CoilState.opened, .cutWaitRoom, .cutWaitSend, .cutting, .closed, .labelled].map CoilState.code = [0, 1, 2, 3, 4, 5]
  ∧ [some Grade.a, some .b, some .c, some .reject, none].map gradeCode = [0, 1, 2, 3, 255]
  ∧ [none, some SpeedCommand.go, some .creep, some .halt].map latchCode = [0, 1, 2, 3]
  ∧ (∀ (n : Nat) (x : Role), Role.ofCode n = some x ↔ n = x.code)
  ∧ (∀ (n : Nat) (x : Action), Action.ofCode n = some x ↔ n = x.code)
  ∧ (∀ (n : Nat) (x : FaultClass), FaultClass.ofCode n = some x ↔ n = x.code)
  ∧ (∀ (n : Nat) (x : ProductKind), ProductKind.ofCode n = some x ↔ n = x.code)
  ∧ (∀ (n : Nat) (x : Direction), Direction.ofCode n = some x ↔ n = x.code)
  ∧ [FaultKind.strandBreak, .layDrift, .headStale, .missingKnot, .needleFault, .missTrackFull, .rowGap, .rowPitch,
      .haulSilent, .haulReverse, .cutterSilent, .cutMismatch, .cutUnexpected, .queueFull, .coilOverlength,
      .misplacedStation, .foreignMgmt, .packOrder, .mgmtOverrun].map FaultKind.number =
      [1, 2, 3, 4, 5, 6, 7, 8, 9, 10, 11, 12, 13, 14, 15, 16, 17, 18, 19]
  ∧ (∀ (n : Nat) (x : FaultKind), FaultKind.ofNumber n = some x ↔ n = x.number)
  ∧ (∀ x : FaultKind, (x.isDefect = true ↔ x.number ∈ [1, 2, 3, 4, 5, 7, 8])
      ∧ (x.sourceIsCoil = true ↔ x.number ∈ [11, 12, 13, 14, 15, 18]))
  ∧ [(1 : Byte), 2, 3, 4, 5, 6, 7, 8, 9, 10, 11, 12, 13, 14, 15, 16, 17, 18].map FrameKind.ofCode =
      [.poll, .turns, .haul, .rowdone, .setpt, .halt, .creep, .go, .cutreq, .cutdone, .mark, .take, .label, .packed,
       .alarm, .mreq, .mrep, .nack]
  ∧ (∀ b : Byte, b = 0 ∨ 18 < b.toNat → FrameKind.ofCode b = .other)
  ∧ [FrameKind.poll, .turns, .haul, .rowdone, .setpt, .go, .cutreq, .cutdone, .mark, .take, .label, .packed, .alarm, .mrep,
      .nack, .other].map FrameKind.actionRow = (List.range 16).map some
  ∧ [FrameKind.halt, .creep, .mreq].map FrameKind.actionRow = [none, none, none]
  ∧ [1, 2, 3, 4, 5, 6, 7].map TableName.ofCode =
      [some .line, some .stations, some .actions, some .products, some .lays, some .mesh, some .faults]
  ∧ (∀ n, n = 0 ∨ 7 < n → TableName.ofCode n = none)
  ∧ (∀ row, (TableName.line.hasRow row = true ↔ row = 0) ∧ (TableName.stations.hasRow row = true ↔ row < 128)
      ∧ (TableName.actions.hasRow row = true ↔ row < 32) ∧ (TableName.products.hasRow row = true ↔ row < 8)
      ∧ (TableName.lays.hasRow row = true ↔ row < 192) ∧ (TableName.mesh.hasRow row = true ↔ row < 64)
      ∧ (TableName.faults.hasRow row = true ↔ 1 ≤ row ∧ row ≤ 19))

/-! ## Arrivals -/

/-- R179, R184: a frame from an UNUSED source, one from the wrong side, and one for an UNUSED destination are
counted and go no further; one from the wrong side makes an occurrence whose source is its source's address (handled
as in `OccurrenceHandled`). A frame that finds no forwarding slot free is lost as a pool drop (log 3, the model's
choice for the ARRIVAL command). R152, R157, R159: what holds the forwarding slots and the injection entries, and the
HOLD-OUT level they set. R153: the count of a good frame. -/
def Obligations.ArrivalDropped : Prop :=
  (∀ s : State,
    let sends (h : Option Holding) (own : Origin → Bool) : Nat := match h with
      | none => 0
      | some h => if h.released = false ∧ own h.origin = true then 1 else 0
    let fills (r : Receiver) : Nat := match r with
      | .fill _ => 1
      | .hunt => 0
      | .skip => 0
    let forwarded (o : Origin) : Bool := match o with
      | .forwarded => true
      | .injected _ => false
      | .latch => false
    let originated (o : Origin) : Bool := match o with
      | .injected _ => true
      | .forwarded => false
      | .latch => false
    s.freeForwarding = 24 - (fills s.portU.receiver + fills s.portD.receiver + s.store.fqd.length
        + s.store.fqu.length + (if s.store.hold.isSome then 1 else 0) + sends s.portU.transmitter forwarded
        + sends s.portD.transmitter forwarded + (if s.store.arriving then 1 else 0))
    ∧ s.iqdHeld = s.store.iqd.length + sends s.portD.transmitter originated
    ∧ s.iquHeld = s.store.iqu.length + sends s.portU.transmitter originated + (if s.store.reserved then 1 else 0)
    ∧ s.setHoldOut = { s with holdOut := decide (s.freeForwarding ≤ s.tables.line.holdThreshold) }
    ∧ s.frameCounted .u = { s with portU.counters.framesGood := min (s.portU.counters.framesGood + 1) 65535 }
    ∧ s.frameCounted .d = { s with portD.counters.framesGood := min (s.portD.counters.framesGood + 1) 65535 })
  ∧
  (∀ (p : Port) (f : Frame) (s : State), s.resetIn = false → s.freeForwarding = 0 → exec (.arrival p f) s =
    .next (s.countPort p (fun k => { k with poolDrops := bump k.poolDrops })))
  ∧ ∀ (p : Port) (f : Frame) (s : State), s.TakesFrames →
    ¬((∀ a, (s.tables.station a).role ≠ .master) ∧ p = .u ∧ f.kind = 16 ∧ f.dst = s.ownAddress) →
    ((s.stationOf f.src).role = .unused → exec (.arrival p f) s =
      .next ((s.frameCounted p).countClassifier (fun c => { c with unknownSources := bump c.unknownSources })))
    ∧ ((s.stationOf f.src).role ≠ .unused → (s.stationOf f.src).side ≠ p →
        let misplaced := raise .misplacedStation (some f.src.toNat) 1 0 { s.frameCounted p with store.arriving := true }
        ∃ t, exec (.arrival p f) s = .next t ∧ t = { misplaced with store.arriving := false }.setHoldOut
          ∧ t.faults.counters = s.faults.counters.modify 15 (fun n => min (n + 1) 65535)
          ∧ t.store.fqd = s.store.fqd ∧ t.store.fqu = s.store.fqu ∧ t.classifier = s.classifier
          ∧ t.coil = s.coil ∧ t.lay = s.lay ∧ t.mesh = s.mesh ∧ t.tally.haulTotal = s.tally.haulTotal
          ∧ t.tables = s.tables ∧ t.ownAddress = s.ownAddress)
    ∧ ((s.stationOf f.src).role ≠ .unused → (s.stationOf f.src).side = p → f.dst ≠ s.ownAddress →
        (∀ k, FrameKind.ofCode f.kind = k → k ≠ .turns ∧ k ≠ .haul ∧ k ≠ .rowdone) →
        f.dst ≠ 127 → (s.stationOf f.dst).role = .unused → exec (.arrival p f) s =
      .next ((s.frameCounted p).countClassifier (fun c => { c with unknownDestinations := bump c.unknownDestinations })))

/-- R160, R183 to R186, R206: a frame from a known source that is not for the LK36 is first tapped: TURNS from a HEAD, HAUL
from the HAULOFF and ROWDONE from the KNOTTER act as those commands. In the state the tap leaves, it is dropped for
an UNUSED destination, blocked, dropped as a short SETPT or as a GO in HALTED, or placed at the end of the queue of
its side, in its slot, with its action and, for a SETPT downstream but no broadcast, its destination's role. The action
is the entry of the kind's row k of the action table, row 2k downstream and row 2k + 1 upstream; HALT, CREEP and MREQ have
no entry and are forwarded. -/
def Obligations.ArrivalForwarded : Prop :=
  ∀ (p toward : Port) (f : Frame) (s : State), s.TakesFrames →
    (s.stationOf f.src).role ≠ .unused → (s.stationOf f.src).side = p → f.dst ≠ s.ownAddress →
    (toward = if f.dst = 127 then (match p with | .u => .d | .d => .u) else (s.stationOf f.dst).side) →
    let k := FrameKind.ofCode f.kind
    let from_ := s.stationOf f.src
    let arrival := exec (.arrival p f) s
    let counted : State := { s.frameCounted p with store.arriving := true }
    let ends (x : State) : Host.Outcome State Fault Refusal := .next { x with store.arriving := false }.setHoldOut
    let known := f.dst = 127 ∨ (s.stationOf f.dst).role ≠ .unused
    let actionOf (row : Nat) : Action := s.tables.actions.getD (2 * row + if toward = .d then 0 else 1) .forward
    let action := match k with
      | .halt | .creep | .mreq => Action.forward
      | .poll => actionOf 0
      | .turns => actionOf 1
      | .haul => actionOf 2
      | .rowdone => actionOf 3
      | .setpt => actionOf 4
      | .go => actionOf 5
      | .cutreq => actionOf 6
      | .cutdone => actionOf 7
      | .mark => actionOf 8
      | .take => actionOf 9
      | .label => actionOf 10
      | .packed => actionOf 11
      | .alarm => actionOf 12
      | .mrep => actionOf 13
      | .nack => actionOf 14
      | .other => actionOf 15
    let entry : FwdFrame := { frame := f, action := action, destRole :=
      if toward = .d ∧ k = .setpt ∧ f.dst ≠ 127 then some (s.stationOf f.dst).role else none }
    let short := toward = .d ∧ k = .setpt ∧ f.payload.length < 2
    ∃ t : State,
      (k = .turns → from_.role = .head → exec (.turns from_.unit f.payload) counted = .next t)
      ∧ (k = .haul → from_.role = .hauloff → exec (.haul f.payload) counted = .next t)
      ∧ (k = .rowdone → from_.role = .knotter → exec (.rowdone f.payload) counted = .next t)
      ∧ (¬((k = .turns ∧ from_.role = .head) ∨ (k = .haul ∧ from_.role = .hauloff)
          ∨ (k = .rowdone ∧ from_.role = .knotter)) → t = counted)
      ∧ (¬known → arrival =
          ends (t.countClassifier (fun c => { c with unknownDestinations := bump c.unknownDestinations })))
      ∧ (known → action = .block → arrival = ends (t.countClassifier (fun c => { c with blocked := bump c.blocked })))
      ∧ (known → action ≠ .block → short → arrival =
          ends (t.countClassifier (fun c => { c with shortSetpoints := bump c.shortSetpoints })))
      ∧ (let halted := toward = .d ∧ k = .go ∧ t.mode = .halted
        (known → action ≠ .block → halted → arrival =
          ends (t.countClassifier (fun c => { c with haltedGos := bump c.haltedGos })))
        ∧ (known → action ≠ .block → ¬short → ¬halted →
          (toward = .d → t.store.fqd.length < 16 → arrival = ends { t with store.fqd := t.store.fqd ++ [entry] })
          ∧ (toward = .u → t.store.fqu.length < 16 → arrival = ends { t with store.fqu := t.store.fqu ++ [entry] })
          ∧ (toward = .d ∧ 16 ≤ t.store.fqd.length ∨ toward = .u ∧ 16 ≤ t.store.fqu.length → arrival =
              ends (t.countClassifier (fun c => { c with queueDrops := bump c.queueDrops })))))

/-- R180 to R182: a frame for the LK36. CUTDONE from the CUTTER, TAKE and PACKED from the PACKER and MREQ from a MASTER are
counted as consumed and act as those commands; NACK, MREP and ALARM are counted; an MREQ from another station raises
FOREIGN_MGMT; every other frame is counted and answered with NACK toward the port it came from, when that port's
injection queue has room. While no row of the map has the role MASTER, an MREQ to the own address on Port U is taken
from any source. R162: a frame joins the end of its injection queue. -/
def Obligations.UnsupportedFrameAnswered : Prop :=
  (∀ (f : Frame) (m : InjMark) (s : State),
    s.queueIqu f m = { s with store.iqu := s.store.iqu ++ [{ frame := f, mark := m }] }
    ∧ s.queueIqd f = { s with store.iqd := s.store.iqd ++ [{ frame := f, mark := .plain }] })
  ∧
  (∀ (f : Frame) (s : State), s.TakesFrames → (∀ a, (s.tables.station a).role ≠ .master) → f.kind = 16 →
    f.dst = s.ownAddress → exec (.arrival .u f) s = exec (.mreq .u f.src f.payload) s)
  ∧ ∀ (p : Port) (f : Frame) (s : State), s.TakesFrames →
    (s.stationOf f.src).role ≠ .unused → (s.stationOf f.src).side = p → f.dst = s.ownAddress →
    let k := FrameKind.ofCode f.kind
    let role := (s.stationOf f.src).role
    let arrival := exec (.arrival p f) s
    let nack : Frame := { dst := f.src, src := s.ownAddress, kind := 18, payload := [f.kind, 1] }
    let counted := (s.frameCounted p).countClassifier (fun c => { c with unsupported := bump c.unsupported })
    let consumed : State :=
      { (s.frameCounted p).countClassifier (fun c => { c with consumed := bump c.consumed }) with
        store.arriving := true }
    let ends (x : State) : Host.Outcome State Fault Refusal := .next { x with store.arriving := false }.setHoldOut
    let refused :=
      (p = .u → s.iquHeld < 4 → arrival = .next (counted.queueIqu nack .plain))
      ∧ (p = .d → s.iqdHeld < 4 → arrival = .next (counted.queueIqd nack))
      ∧ ((p = .u ∧ 4 ≤ s.iquHeld ∨ p = .d ∧ 4 ≤ s.iqdHeld) → arrival = .next (counted.countClassifier
          (fun c => { c with unsupportedNacksNotSent := bump c.unsupportedNacksNotSent })))
    (k ≠ .mreq → k ≠ .cutdone → k ≠ .take → k ≠ .packed → k ≠ .nack → k ≠ .mrep → k ≠ .alarm → refused)
    ∧ (k = .cutdone → role ≠ .cutter → refused)
    ∧ (k = .take ∨ k = .packed → role ≠ .packer → refused)
    ∧ (k = .nack ∨ k = .mrep ∨ k = .alarm → arrival = .next counted)
    ∧ (k = .cutdone → role = .cutter → ∃ t, exec (.cutdone f.payload) consumed = .next t ∧ arrival = ends t)
    ∧ (k = .take → role = .packer → ∃ t, exec (.take f.payload) consumed = .next t ∧ arrival = ends t)
    ∧ (k = .packed → role = .packer → ∃ t, exec (.packed f.src f.payload) consumed = .next t ∧ arrival = ends t)
    ∧ (k = .mreq → role = .master → arrival = exec (.mreq p f.src f.payload) s)
    ∧ (k = .mreq → role ≠ .master → (∃ a, (s.tables.station a).role = .master) ∨ p = .d → arrival =
        ends (raise .foreignMgmt (some f.src.toNat) 1 0 { s.frameCounted p with store.arriving := true }))

/-! ## Lay -/

/-- R41, R42, R64, R65, R67: a TURNS or ROWDONE report rejected, one ignored, and a ROWDONE met as a duplicate
are counted and change nothing else. -/
def Obligations.ReportsNotTaken : Prop :=
  (∀ (u : HeadUnit) (pl : List Byte) (s : State), s.resetIn = false →
    let rejected := pl.length < 5 ∨ 1023 < numberAt pl 3 2 ∨ 8 < numberAt pl 5 1
    let ignored := s.mode = .parked ∨ s.mode = .halted ∨ (s.layRow u).inUse = false ∨ (s.head u).state = .broken
    (rejected → exec (.turns u pl) s = .next { s with lay.rejectedTurns := bump s.lay.rejectedTurns })
    ∧ (¬rejected → ignored → exec (.turns u pl) s = .next { s with lay.ignoredTurns := bump s.lay.ignoredTurns }))
  ∧ (∀ (pl : List Byte) (s : State), s.resetIn = false →
    let k := min (numberAt pl 3 1) 14
    let rejected := pl.length < 3 ∨ pl.length < 3 + 2 * k
    let ignored := s.mode = .parked ∨ s.mode = .halted ∨ s.mesh.active = false
    (rejected → exec (.rowdone pl) s = .next { s with mesh.counts.rejectedRowdone := bump s.mesh.counts.rejectedRowdone })
    ∧ (¬rejected → ignored → exec (.rowdone pl) s = .next { s with mesh.counts.ignoredRows := bump s.mesh.counts.ignoredRows })
    ∧ (∀ e, ¬rejected → ¬ignored → s.mesh.cursor.expected = some e → e < 65536 →
        256 ≤ (numberAt pl 1 2 + 65536 - e) % 65536 → exec (.rowdone pl) s =
          .next { s with mesh.counts.duplicateRows := bump s.mesh.counts.duplicateRows }))

/-- R43 to R45: a taken report accumulates; by its strands and its tension the head goes on or is BROKEN, and a
break is handed to fault dispatch, which with class HALT halts the line. -/
def Obligations.TurnsTaken : Prop :=
  ∀ (u : HeadUnit) (pl : List Byte) (s : State), s.resetIn = false →
    5 ≤ pl.length → numberAt pl 3 2 ≤ 1023 → numberAt pl 5 1 ≤ 8 →
    (s.mode = .threading ∨ s.mode = .run ∨ s.mode = .creep) → (s.layRow u).inUse = true → (s.head u).state ≠ .broken →
    let h := s.head u
    let tension := numberAt pl 3 2
    let strands := numberAt pl 5 1
    let sum := max (-2147483648) (min 2147483647 (h.windowSum + signedOf 2 (numberAt pl 1 2)))
    let taken : HeadRecord :=
      { h with windowSum := sum, reports := min (h.reports + 1) 65535, lastTension := tension, lastStrands := strands }
    let become (x : HeadRecord) : State := { s with lay.heads := s.lay.heads.set u.val x }
    let broke (x : HeadRecord) : Prop :=
      exec (.turns u pl) s = .next (raise .strandBreak (some u.val) 1 0 (become x))
        ∧ (s.tables.faultClass .strandBreak = .halt → (raise .strandBreak (some u.val) 1 0 (become x)).mode = .halted)
    (strands < s.product.strandCount → broke { taken with state := .broken })
    ∧ (s.product.strandCount ≤ strands → s.product.tensionFloor ≤ tension →
        exec (.turns u pl) s = .next (become { taken with lowRun := 0 }))
    ∧ (s.product.strandCount ≤ strands → tension < s.product.tensionFloor → h.lowRun + 1 < s.product.breakFilter →
        exec (.turns u pl) s = .next (become { taken with lowRun := h.lowRun + 1 }))
    ∧ (s.product.strandCount ≤ strands → tension < s.product.tensionFloor → s.product.breakFilter ≤ h.lowRun + 1 →
        broke { taken with lowRun := h.lowRun + 1, state := .broken })

/-- R46 to R49: a window end, whose amount is the command's (log 5, the model's choice). Outside production it clears
the window sums alone; in production every head in use is judged by its state at the start, all sums are cleared, the
open coil's lay summary is written, and what was noted is handed on in ascending head unit. -/
def Obligations.WindowEnds : Prop :=
  ∀ (n : Nat) (s : State), s.resetIn = false → s.tally.window.running = true → s.tally.window.current ≤ n →
    s.lay.heads.length = 24 →
    let w := s.tally.windowLength + n
    let reloaded : Tally := { s.tally with
      windowLength := 0
      window := { s.tally.window with
        current := s.tally.window.preset - (n - s.tally.window.current) % s.tally.window.preset
        skipped := min (s.tally.window.skipped + (n - s.tally.window.current) / s.tally.window.preset) 65535 } }
    let tolerance := if s.mode = .threading then s.product.threadTolerance else s.product.runTolerance
    let judged (u : HeadUnit) : Prop := (s.layRow u).inUse = true
      ∧ ((s.head u).state = .tracking ∨ (s.head u).state = .drift ∨ (s.head u).state = .stale)
    let measured (u : HeadUnit) : Prop := judged u ∧ 0 < (s.head u).reports
    let lay (u : HeadUnit) : Nat :=
      min ((s.head u).windowSum.natAbs * 10000000 / (w * (s.layRow u).takeUp)) 4294967295
    let wrong (u : HeadUnit) : Prop := (s.head u).windowSum = 0
      ∨ (0 < (s.head u).windowSum ∧ (s.layRow u).direction = .s)
      ∨ ((s.head u).windowSum < 0 ∧ (s.layRow u).direction = .z)
    let off (u : HeadUnit) : Nat := if wrong u then 1000 else
      min (((lay u : Int) - (s.layRow u).targetLay).natAbs * 1000 / (s.layRow u).targetLay) 65535
    let drifts (u : HeadUnit) : Prop := measured u ∧ tolerance < off u
    let note (u : HeadUnit) (k : FaultKind) : Occurrence :=
      { kind := k, source := some u.val, count := 1, extent := w, stamp := s.tally.haulTotal }
    let noted := (List.finRange 24).filterMap (fun u =>
      if drifts u then some (note u .layDrift)
      else if judged u ∧ (s.head u).reports = 0 then some (note u .headStale) else none)
    let c := s.coil.openCoil
    ((s.mode = .parked ∨ s.mode = .halted) → exec (.windowEnd n) s = .next { s with
      tally := reloaded
      lay.heads := s.lay.heads.map (fun h => { h with windowSum := 0, reports := 0 }) })
    ∧ ((s.mode = .threading ∨ s.mode = .run ∨ s.mode = .creep) → ∃ x t : State,
        exec (.windowEnd n) s = .next t ∧ t = noted.foldl (fun y o => handle o y) x ∧ t.lay = x.lay
        ∧ x = { s with tally := reloaded, lay.heads := x.lay.heads, coil.openCoil := x.coil.openCoil }
        ∧ ((∀ u, ¬measured u) → x.coil.openCoil = c)
        ∧ (∀ v, measured v → (∀ u, measured u → off u ≤ off v) → x.coil.openCoil = { c with
            worstDeviation := max c.worstDeviation (off v)
            driftWindows := if ∃ u, drifts u then min (c.driftWindows + 1) 65535 else c.driftWindows })
        ∧ ∀ u, (t.head u).windowSum = 0 ∧ (t.head u).reports = 0 ∧ (t.head u).lowRun = (s.head u).lowRun
          ∧ ((s.layRow u).inUse = false ∨ (s.head u).state = .broken → (t.head u).state = (s.head u).state)
          ∧ ((s.layRow u).inUse = true → (s.head u).state = .settling → (t.head u).state = .tracking)
          ∧ (judged u → (s.head u).reports = 0 → (t.head u).state = .stale)
          ∧ (measured u → (t.head u).lastLay = lay u ∧ (t.head u).lastDeviation = off u)
          ∧ (measured u → off u ≤ tolerance → (t.head u).state = .tracking
              ∧ (t.head u).driftWindows = (s.head u).driftWindows)
          ∧ (measured u → tolerance < off u → (t.head u).state = .drift
              ∧ (t.head u).driftWindows = min ((s.head u).driftWindows + 1) 65535))

/-! ## Length -/

/-- R20, R21, R25: a HAUL too short, a zero one, and a positive one that fits below the haul limit, finds no
overlength and makes no counter underflow. -/
def Obligations.HaulForward : Prop :=
  ∀ (pl : List Byte) (s : State), s.resetIn = false →
    let i := signedOf 2 (numberAt pl 1 2)
    let n := i.toNat
    let drop (running : Bool) (current : Nat) : Nat := if running then current - n else current
    (pl.length < 2 → exec (.haul pl) s = .next { s with tally.shortHaul := bump s.tally.shortHaul })
    ∧ (2 ≤ pl.length → i = 0 → exec (.haul pl) s = .next { s with tally.haulTaken := bump s.tally.haulTaken })
    ∧ (2 ≤ pl.length → 0 < i → s.tally.haulTotal + n ≤ 2147483647 →
        (s.coil.openCoil.state = .cutting ∨ s.coil.openCoil.overlengthNoted = true
          ∨ s.coil.openCoil.length + n ≤ s.product.coilTarget + s.product.overlengthLimit) →
        (s.tally.coil.running = true → n < s.tally.coil.current) →
        (s.tally.mark.running = true → n < s.tally.mark.current) →
        (s.tally.window.running = true → n < s.tally.window.current) →
        exec (.haul pl) s = .next { s with
          coil.openCoil.length := s.coil.openCoil.length + n
          tally := { s.tally with
            haulTaken := bump s.tally.haulTaken
            haulTotal := s.tally.haulTotal + n
            haulwatch := if s.mode = .run ∨ s.mode = .creep then
                { running := true, current := s.tables.line.haulWatch, preset := s.tables.line.haulWatch, excess := 0 }
              else s.tally.haulwatch
            coil.current := drop s.tally.coil.running s.tally.coil.current
            mark.current := drop s.tally.mark.running s.tally.mark.current
            window.current := drop s.tally.window.running s.tally.window.current
            windowLength := if s.tally.window.running then s.tally.windowLength + n else s.tally.windowLength } })

/-- R20, R21: any positive increment: it is clipped at the haul limit, counted, examined for overlength, and given
to COIL, MARK and WINDOW in this order, each of which counts down or makes its underflow. An underflow is stated as the
underflow command with its amount (log 5, the model's choice); an applied amount of 0 makes no overlength examination
(log 30, read by inference). -/
def Obligations.HaulPassesOn : Prop :=
  ∀ (pl : List Byte) (s : State), s.resetIn = false → 2 ≤ pl.length → 0 < signedOf 2 (numberAt pl 1 2) →
    let m := (signedOf 2 (numberAt pl 1 2)).toNat
    let n := min m (2147483647 - s.tally.haulTotal)
    let heard : State := { s with
      tally := { s.tally with
        haulTaken := bump s.tally.haulTaken
        clippedHaul := if n < m then bump s.tally.clippedHaul else s.tally.clippedHaul
        haulwatch := if s.mode = .run ∨ s.mode = .creep then
            { running := true, current := s.tables.line.haulWatch, preset := s.tables.line.haulWatch, excess := 0 }
          else s.tally.haulwatch } }
    let longer : State := { heard with
      tally.haulTotal := s.tally.haulTotal + n, coil.openCoil.length := s.coil.openCoil.length + n }
    let exceeds := s.coil.openCoil.state ≠ .cutting ∧ s.coil.openCoil.overlengthNoted = false
      ∧ s.product.coilTarget + s.product.overlengthLimit < s.coil.openCoil.length + n
    (n = 0 → exec (.haul pl) s = .next heard)
    ∧ (0 < n → ∃ w x y z : State, exec (.haul pl) s = .next z
        ∧ (¬exceeds → w = longer)
        ∧ (exceeds → w = raise .coilOverlength (some s.coil.openCoil.number) 1 0
            { longer with coil.openCoil.overlengthNoted := true })
        ∧ (w.tally.coil.running = true → w.tally.coil.current ≤ n → exec (.coilUnderflow n) w = .next x)
        ∧ (w.tally.coil.running = true → n < w.tally.coil.current →
            x = { w with tally.coil.current := w.tally.coil.current - n })
        ∧ (w.tally.coil.running = false → x = w)
        ∧ (x.tally.mark.running = true → x.tally.mark.current ≤ n → exec (.markUnderflow n) x = .next y)
        ∧ (x.tally.mark.running = true → n < x.tally.mark.current →
            y = { x with tally.mark.current := x.tally.mark.current - n })
        ∧ (x.tally.mark.running = false → y = x)
        ∧ (y.tally.window.running = true → y.tally.window.current ≤ n → exec (.windowEnd n) y = .next z)
        ∧ (y.tally.window.running = true → n < y.tally.window.current →
            z = { y with tally.window.current := y.tally.window.current - n
                         tally.windowLength := y.tally.windowLength + n })
        ∧ (y.tally.window.running = false → z = y))

/-- R22: a negative increment in RUN or CREEP is refused with HAUL_REVERSE; HAULWATCH has been preset. -/
def Obligations.ReverseHaulRefused : Prop :=
  ∀ (pl : List Byte) (s : State), s.resetIn = false → 2 ≤ pl.length → signedOf 2 (numberAt pl 1 2) < 0 →
    (s.mode = .run ∨ s.mode = .creep) →
    let heard : State := { s with
      tally.haulTaken := bump s.tally.haulTaken
      tally.haulwatch :=
        { running := true, current := s.tables.line.haulWatch, preset := s.tables.line.haulWatch, excess := 0 } }
    let t := handle { kind := .haulReverse, source := none, count := 1, extent := 0, stamp := s.tally.haulTotal } heard
    exec (.haul pl) s = .next t
      ∧ t.tally.haulTotal = s.tally.haulTotal ∧ t.coil.openCoil.length = s.coil.openCoil.length
      ∧ t.tally.coil = s.tally.coil ∧ t.tally.mark = s.tally.mark ∧ t.tally.window = s.tally.window
      ∧ t.tally.windowLength = s.tally.windowLength ∧ t.tally.cutwait = s.tally.cutwait
      ∧ t.tally.haulwatch.current = s.tables.line.haulWatch
      ∧ (s.tables.faultClass .haulReverse = .halt → t.mode = .halted)

/-- R23: a negative increment in PARKED, THREADING or HALTED is clamped at the open coil's length. -/
def Obligations.ReverseHaulClamped : Prop :=
  ∀ (pl : List Byte) (s : State), s.resetIn = false → 2 ≤ pl.length → signedOf 2 (numberAt pl 1 2) < 0 →
    (s.mode = .parked ∨ s.mode = .threading ∨ s.mode = .halted) →
    let m := (signedOf 2 (numberAt pl 1 2)).natAbs
    let a := min m s.coil.openCoil.length
    exec (.haul pl) s = .next { s with
      coil.openCoil.length := s.coil.openCoil.length - a
      tally := { s.tally with
        haulTaken := bump s.tally.haulTaken
        haulTotal := s.tally.haulTotal - a
        clippedHaul := if a < m then bump s.tally.clippedHaul else s.tally.clippedHaul } }

/-- R177: the address of a role is the lowest one mapped with it, or else the default named. R25, R92, R94: a COIL
underflow cuts an OPEN coil; R101: a MARK underflow sends a MARK, or counts it missed. -/
def Obligations.CoilAndMarkUnderflow : Prop :=
  (∀ (t : Tables) (role : Role) (absent : Addr), role ≠ .unused →
    ((∀ a, (t.station a).role ≠ role) → t.addressOf role absent = absent)
    ∧ (∀ a : Addr, (t.station a.toNat).role = role → (∀ b, b < a.toNat → (t.station b).role ≠ role) →
        t.addressOf role absent = a))
  ∧ ∀ (n : Nat) (s : State), s.resetIn = false →
    let lag := n - s.tally.coil.current
    let cut : State := { s with tally.coil := { s.tally.coil with running := false, current := 0, excess := lag } }
    let e := n - s.tally.mark.current
    let reloaded : State := { s with tally.mark := { s.tally.mark with
      current := s.tally.mark.preset - e % s.tally.mark.preset
      skipped := min (s.tally.mark.skipped + e / s.tally.mark.preset) 65535 } }
    (s.tally.coil.running = true → s.tally.coil.current ≤ n →
      (s.coil.openCoil.state ≠ .opened → exec (.coilUnderflow n) s = .next cut)
      ∧ (s.coil.openCoil.state = .opened → s.coil.queue.length < 16 → s.iqdHeld < 4 → exec (.coilUnderflow n) s =
          .next { cut.queueIqd { dst := s.tables.addressOf .cutter 127, src := s.ownAddress, kind := 9,
                                 payload := enc2 s.coil.openCoil.number } with
            coil.openCoil.cutLag := lag, coil.openCoil.state := .cutting })
      ∧ (s.coil.openCoil.state = .opened → s.coil.queue.length < 16 → 4 ≤ s.iqdHeld → exec (.coilUnderflow n) s =
          .next { cut with coil.openCoil.cutLag := lag, coil.openCoil.state := .cutWaitSend })
      ∧ (s.coil.openCoil.state = .opened → 16 ≤ s.coil.queue.length → exec (.coilUnderflow n) s =
          .next (raise .queueFull (some s.coil.openCoil.number) 1 0
            { cut with coil.openCoil.cutLag := lag, coil.openCoil.state := .cutWaitRoom })))
    ∧ (s.tally.mark.running = true → s.tally.mark.current ≤ n → e % s.tally.mark.preset ≤ s.coil.openCoil.length →
      (s.iqdHeld < 4 → exec (.markUnderflow n) s =
          .next { reloaded.queueIqd { dst := s.tables.addressOf .cutter 127, src := s.ownAddress, kind := 11,
                                      payload := enc2 s.coil.openCoil.number
                                        ++ enc4 (s.coil.openCoil.length - e % s.tally.mark.preset) } with
            coil.marksMissed := min (s.coil.marksMissed + e / s.tally.mark.preset) 65535 })
      ∧ (4 ≤ s.iqdHeld → exec (.markUnderflow n) s =
          .next { reloaded with
            coil.marksMissed := min (s.coil.marksMissed + (e / s.tally.mark.preset + 1)) 65535 }))

/-- R31 to R33, R100: the time base counts the running time counters down; HAULWATCH's underflow is HAUL_SILENT,
CUTWAIT's returns the open coil to OPEN, overdue, with an overlength examination and CUTTER_SILENT. Where both
underflow at one expiry both are handed on, in an order that is a free value (log 7). The two underflows as commands
act at once on a running counter (log 6, the model's choice). -/
def Obligations.TimeCounters : Prop :=
  ∀ s : State, s.resetIn = false →
    let drop (c : OneShot) : OneShot := { c with current := if c.running then c.current - 1 else c.current }
    let stopped (c : OneShot) : OneShot := { c with running := false, current := 0, excess := 0 }
    let due (c : OneShot) : Prop := c.running = true ∧ c.current ≤ 1
    let silent (x : State) : State := raise .haulSilent none 1 0 x
    let reopened (x : State) : State := { x with coil.openCoil.state := .opened, coil.openCoil.overdue := true }
    let examined (x : State) : State :=
      if x.coil.openCoil.overlengthNoted = false
          ∧ x.product.coilTarget + x.product.overlengthLimit < x.coil.openCoil.length then
        raise .coilOverlength (some x.coil.openCoil.number) 1 0 { x with coil.openCoil.overlengthNoted := true }
      else x
    let overdue (x : State) : State :=
      raise .cutterSilent (some x.coil.openCoil.number) 1 0 (examined (reopened x))
    let both : State := { s with
      tally.haulwatch := stopped s.tally.haulwatch, tally.cutwait := stopped s.tally.cutwait
      freeDraws := s.freeDraws + 1 }
    (¬due s.tally.haulwatch → ¬due s.tally.cutwait → exec .timeBaseExpiry s = .next { s with
        tally.haulwatch := drop s.tally.haulwatch, tally.cutwait := drop s.tally.cutwait })
    ∧ (due s.tally.haulwatch → ¬due s.tally.cutwait → exec .timeBaseExpiry s =
        exec .haulwatchUnderflow { s with tally.cutwait := drop s.tally.cutwait })
    ∧ (¬due s.tally.haulwatch → due s.tally.cutwait → exec .timeBaseExpiry s =
        exec .cutwaitUnderflow { s with tally.haulwatch := drop s.tally.haulwatch })
    ∧ (due s.tally.haulwatch → due s.tally.cutwait →
        exec .timeBaseExpiry s = .next (overdue (silent both)) ∨ exec .timeBaseExpiry s = .next (silent (overdue both)))
    ∧ (s.tally.haulwatch.running = true → exec .haulwatchUnderflow s =
        .next (silent { s with tally.haulwatch := stopped s.tally.haulwatch }))
    ∧ (s.tally.cutwait.running = true → exec .cutwaitUnderflow s =
        .next (overdue { s with tally.cutwait := stopped s.tally.cutwait }))
    ∧ (s.tally.cutwait.running = true → ∃ t, exec .cutwaitUnderflow s = .next t
        ∧ t.tally.cutwait = stopped s.tally.cutwait ∧ t.coil.openCoil.state = .opened
        ∧ t.coil.openCoil.overdue = true ∧ t.coil.openCoil.number = s.coil.openCoil.number
        ∧ t.coil.queue = s.coil.queue ∧ t.tally.coil = s.tally.coil
        ∧ t.faults.counters[10]? = (s.faults.counters[10]?).map (fun n => min (n + 1) 65535))

/-! ## Mesh -/

/-- R66 to R78: a processed row. Without a missing knot or a row pitch to check, as expected: the row is counted into
the coil, the phase moves, a taper or a step end comes when it is due, and the next row is expected. In general: the
passed rows of a gap advance the cursor first; each listed position is a stray, is disregarded, or is a missing knot
entered in the miss table; the unnamed remainder is noted; entries that formed their knot are cleared; the row pitch is
checked; the row advances the cursor; and what was noted is handed on in that order. -/
def Obligations.RowdoneCounted : Prop :=
  (∀ (pl : List Byte) (s : State), s.resetIn = false → 3 ≤ pl.length → numberAt pl 3 1 = 0 →
    (s.mode = .threading ∨ s.mode = .run ∨ s.mode = .creep) → s.mesh.active = true → s.mesh.misses = [] →
    (s.mesh.cursor.expected = none ∨ s.mesh.cursor.expected = some (numberAt pl 1 2)) →
    (s.mesh.cursor.pitchRef = none ∨ s.product.rowPitch = 0) →
    let c := s.mesh.cursor
    let step := s.tables.meshRow c.stepIndex
    let done := min (c.rowsDone + 1) 65535
    let moved : Cursor := { c with
      rowsDone := done
      phase := if 2 * step.selvedgeCode + 1 ≤ c.phase + 1 then 0 else c.phase + 1
      expected := some ((numberAt pl 1 2 + 1) % 65536)
      pitchRef := some s.tally.haulTotal }
    let first := (c.bandFirst : Int) - step.widenLeft
    let last := (c.bandLast : Int) + step.widenRight
    let fits := 0 ≤ first ∧ last ≤ 511 ∧ first ≤ last
    let becomes (x : Mesh) : Prop := exec (.rowdone pl) s = .next { s with
      coil.openCoil.rows := if s.coil.openCoil.net then bump s.coil.openCoil.rows else s.coil.openCoil.rows
      mesh := x }
    (c.held = true ∨ (done % step.taperEvery ≠ 0 ∧ done < step.rows) → becomes { s.mesh with cursor := moved })
    ∧ (c.held = false → done % step.taperEvery = 0 → done < step.rows → fits → becomes { s.mesh with
        cursor := { moved with
          taperCount := min (c.taperCount + 1) 255, bandFirst := first.toNat, bandLast := last.toNat } })
    ∧ (c.held = false → done % step.taperEvery = 0 → done < step.rows → ¬fits → becomes { s.mesh with
        cursor := { moved with taperCount := min (c.taperCount + 1) 255 }
        counts.refusedTapers := bump s.mesh.counts.refusedTapers })
    ∧ (c.held = false → done % step.taperEvery ≠ 0 → step.rows ≤ done → step.next = none →
        becomes { s.mesh with cursor := { moved with held := true } })
    ∧ (∀ i, c.held = false → done % step.taperEvery ≠ 0 → step.rows ≤ done → step.next = some i →
        let row := s.tables.meshRow i
        (row.valid = true → row.first ≤ row.last → becomes { s.mesh with
          cursor := { moved with stepIndex := i, rowsDone := 0, bandFirst := row.first, bandLast := row.last
                                 taperCount := 0, phase := 0 } })
        ∧ (row.valid = false ∨ row.last < row.first → becomes { s.mesh with
          cursor := { moved with held := true }, counts.refusedSteps := bump s.mesh.counts.refusedSteps })))
  ∧ (∀ (pl : List Byte) (d : Nat) (s : State), s.resetIn = false →
    (s.mode = .threading ∨ s.mode = .run ∨ s.mode = .creep) → s.mesh.active = true →
    3 + 2 * min (numberAt pl 3 1) 14 ≤ pl.length → d < 256 →
    (s.mesh.cursor.expected = none ∧ d = 0
      ∨ ∃ e, s.mesh.cursor.expected = some e ∧ e < 65536 ∧ d = (numberAt pl 1 2 + 65536 - e) % 65536) →
    let row := numberAt pl 1 2
    let missing := numberAt pl 3 1
    let listed := (List.range (min missing 14)).map (fun i => numberAt pl (4 + 2 * i) 2)
    let stepOf (m : Mesh) : MeshRow := s.tables.meshRow m.cursor.stepIndex
    let note (k : FaultKind) (src : Option Nat) (count extent : Nat) : Occurrence :=
      { kind := k, source := src, count := count, extent := extent, stamp := s.tally.haulTotal }
    -- one row counted (R69), its taper (R70) and its step end (R71)
    let counted (m : Mesh) : Mesh := { m with
      cursor.rowsDone := min (m.cursor.rowsDone + 1) 65535
      cursor.phase := if 2 * (stepOf m).selvedgeCode + 1 ≤ m.cursor.phase + 1 then 0 else m.cursor.phase + 1 }
    let within (first last : Nat) (m : Mesh) : Mesh := { m with
      cursor.bandFirst := first, cursor.bandLast := last
      misses := m.misses.filter (fun e => first ≤ e.position ∧ e.position ≤ last) }
    let tapered (m : Mesh) : Mesh :=
      let first := (m.cursor.bandFirst : Int) - (stepOf m).widenLeft
      let last := (m.cursor.bandLast : Int) + (stepOf m).widenRight
      let more : Mesh := { m with cursor.taperCount := min (m.cursor.taperCount + 1) 255 }
      if m.cursor.held = true ∨ m.cursor.rowsDone % (stepOf m).taperEvery ≠ 0 then m
      else if 0 ≤ first ∧ last ≤ 511 ∧ first ≤ last then within first.toNat last.toNat more
      else { more with counts.refusedTapers := bump m.counts.refusedTapers }
    let enters (m : Mesh) (i : StepIndex) (row : MeshRow) : Mesh :=
      if row.valid = true ∧ row.first ≤ row.last then
        within row.first row.last { m with
          cursor := { m.cursor with stepIndex := i, rowsDone := 0, taperCount := 0, phase := 0 } }
      else { m with cursor.held := true, counts.refusedSteps := bump m.counts.refusedSteps }
    let stepped (m : Mesh) : Mesh :=
      if m.cursor.held = true ∨ m.cursor.rowsDone < (stepOf m).rows then m
      else match (stepOf m).next with
        | none => { m with cursor.held := true }
        | some i => enters m i (s.tables.meshRow i)
    let advanced (m : Mesh) : Mesh := stepped (tapered (counted m))
    let passed := Nat.repeat advanced d s.mesh
    -- a position as the band and the selvedge zone of the row see it (R72)
    let c := passed.cursor
    let inBand (p : Nat) : Prop := c.bandFirst ≤ p ∧ p ≤ c.bandLast
    let inZone (p : Nat) : Prop :=
      p < c.bandFirst + (stepOf passed).selvedgeWidth ∨ c.bandLast < p + (stepOf passed).selvedgeWidth
    let checkable (p : Nat) : Prop := inBand p ∧ (¬inZone p ∨ c.phase = 0)
    -- the positions one after another: the monitor so far, those met, whether the table was full, what was noted
    let again (e : MissEntry) : MissEntry := { e with
      misses := min (e.misses + 1) 255
      flagged := e.flagged || decide (s.product.needleLimit ≤ min (e.misses + 1) 255) }
    let missed (p : Nat) (m : Mesh) (full : Bool) (noted : List Occurrence) : Mesh × Bool × List Occurrence :=
      if m.misses.any (fun e => e.position = p) then
        ({ m with misses := m.misses.map (fun e => if e.position = p then again e else e) }, full,
          noted ++ (if ∃ e ∈ m.misses, e.position = p ∧ e.flagged = false ∧ (again e).flagged = true then
            [note .needleFault (some p) 1 0] else []))
      else if m.misses.length < 32 then
        ({ m with misses := m.misses ++ [{ position := p, misses := 1, flagged := false }] }, full, noted)
      else ({ m with counts.untrackedMisses := bump m.counts.untrackedMisses }, true,
        noted ++ (if full then [] else [note .missTrackFull none 1 0]))
    let taken (x : (Mesh × Bool × List Occurrence) × List Nat) (p : Nat) :
        (Mesh × Bool × List Occurrence) × List Nat :=
      (if ¬inBand p ∨ p ∈ x.2 then
        ({ x.1.1 with counts.strayPositions := bump x.1.1.counts.strayPositions }, x.1.2)
      else if checkable p then missed p x.1.1 x.1.2.1 (x.1.2.2 ++ [note .missingKnot (some p) 1 0])
      else x.1, x.2 ++ [p])
    let scanned := (listed.foldl taken ((passed, false, []), [])).1
    -- the clearing (R76), the row itself (R69) and the next row expected (R66 step 7)
    let cleared : Mesh := { scanned.1 with misses :=
      if missing ≤ 14 then scanned.1.misses.filter (fun e => ¬checkable e.position ∨ e.position ∈ listed)
      else scanned.1.misses }
    let ended := advanced cleared
    let gap := match s.mesh.cursor.pitchRef with
      | none => 0
      | some r => s.tally.haulTotal - r
    let pitch := match s.mesh.cursor.pitchRef with
      | none => []
      | some r =>
        let long := (s.tally.haulTotal : Int) - r
        let due := s.product.rowPitch * (1 + d)
        if s.product.rowPitch ≠ 0 ∧ s.product.pitchTolerance < (long - due).natAbs * 1000 / due then
          [note .rowPitch none 1 (max long 0).toNat]
        else []
    let noted := (if d = 0 then [] else [note .rowGap none d gap]) ++ scanned.2.2
      ++ (if 14 < missing then [note .missingKnot none (missing - 14) 0] else []) ++ pitch
    exec (.rowdone pl) s = .next (noted.foldl (fun x o => handle o x) { s with
      coil.openCoil.rows :=
        if s.coil.openCoil.net then min (s.coil.openCoil.rows + (d + 1)) 65535 else s.coil.openCoil.rows
      mesh := { ended with
        cursor.expected := some ((row + 1) % 65536), cursor.pitchRef := some s.tally.haulTotal } }))

/-- R72 to R74: one listed position of a row as expected, or of the first row of an UNSYNCED cursor, with the cursor
held at the end of its last step: outside the band a stray; inside a selvedge zone on another phase than 0 nothing; else a missing knot, entered in the miss table, or
one miss more in its entry, which at the needle limit is a needle fault. The row pitch is not checked: there is no
pitch reference, or the product has no row pitch. -/
def Obligations.MissingKnotRecorded : Prop :=
  ∀ (pl : List Byte) (s : State), s.resetIn = false → 5 ≤ pl.length → numberAt pl 3 1 = 1 →
    (s.mode = .threading ∨ s.mode = .run ∨ s.mode = .creep) → s.mesh.active = true →
    s.mesh.cursor.held = true →
    ((s.mesh.cursor.expected = none ∧ s.mesh.cursor.pitchRef = none)
      ∨ (s.mesh.cursor.expected = some (numberAt pl 1 2) ∧ s.product.rowPitch = 0)) →
    let c := s.mesh.cursor
    let p := numberAt pl 4 2
    let width := (s.tables.meshRow c.stepIndex).selvedgeWidth
    let inBand := c.bandFirst ≤ p ∧ p ≤ c.bandLast
    let inZone := p < c.bandFirst + width ∨ c.bandLast < p + width
    let up (k : Nat) (l : List Nat) : List Nat := l.modify k (fun n => min (n + 1) 65535)
    ∃ t, exec (.rowdone pl) s = .next t
      ∧ (¬inBand → s.mesh.misses = [] → t.mesh.misses = [] ∧ t.faults = s.faults
          ∧ t.mesh.counts.strayPositions = bump s.mesh.counts.strayPositions)
      ∧ (inBand → inZone → c.phase ≠ 0 → s.mesh.misses = [] → t.mesh.misses = [] ∧ t.faults = s.faults
          ∧ t.mesh.counts = s.mesh.counts)
      ∧ (inBand → ¬inZone ∨ c.phase = 0 → s.mesh.misses = [] →
          t.mesh.misses = [{ position := p, misses := 1, flagged := false }]
          ∧ t.faults.counters = up 3 s.faults.counters
          ∧ t.coil.openCoil.points = min (s.coil.openCoil.points + 1) 4294967295)
      ∧ (∀ m, inBand → ¬inZone ∨ c.phase = 0 →
          s.mesh.misses = [{ position := p, misses := m, flagged := false }] → m < 255 →
          (m + 1 < s.product.needleLimit →
            t.mesh.misses = [{ position := p, misses := m + 1, flagged := false }]
            ∧ t.faults.counters = up 3 s.faults.counters)
          ∧ (s.product.needleLimit ≤ m + 1 →
            t.mesh.misses = [{ position := p, misses := m + 1, flagged := true }]
            ∧ t.faults.counters = up 4 (up 3 s.faults.counters)))

/-! ## Coils -/

/-- R97: a CUTDONE too short is counted; one that does not name the coil being cut raises CUT_UNEXPECTED and
changes no coil record, no counter and no CUTWAIT. -/
def Obligations.CutdoneUnexpected : Prop :=
  ∀ (pl : List Byte) (s : State), s.resetIn = false →
    let n := numberAt pl 1 2
    (pl.length < 4 → exec (.cutdone pl) s = .next { s with coil.rejectedFrames := bump s.coil.rejectedFrames })
    ∧ (4 ≤ pl.length → (s.coil.openCoil.number ≠ n ∨ s.coil.openCoil.state ≠ .cutting) →
        let t := raise .cutUnexpected (some n) 1 0 s
        exec (.cutdone pl) s = .next t ∧ t.coil = s.coil ∧ t.tally.cutwait = s.tally.cutwait
          ∧ t.tally.coil = s.tally.coil ∧ t.tally.mark = s.tally.mark ∧ t.tally.window = s.tally.window)

/-- R97 to R99, R89, R115, R116: a CUTDONE that names the coil being cut closes it, graded, at the end of the coil
queue, and opens the next coil with the after-cut length, under the next product where its examination passes. A
pending TAKE is served by the close, for the oldest CLOSED record, the closing one where no older is (R102, R103). Where
more points are removed than the record holds, the points left are a free value (log 19). COIL, MARK and, under a new product, WINDOW are preset for the new coil, which
is cut at once when its length reaches what COIL would count (R26 to R29), and is noted when overlength (R91). An
after-cut length beyond the coil's is CUT_MISMATCH. Under thresholds that do not rise, the first grade that fits is
the model's choice (log 33). At a changeover the
heads and the pattern cursor are set from the new product (R55, R63, R116); without one both stay but for the drift
windows (R54). -/
def Obligations.CutdoneCloses : Prop :=
  ∀ (pl : List Byte) (s : State), s.resetIn = false → 4 ≤ pl.length →
    s.coil.openCoil.number = numberAt pl 1 2 → s.coil.openCoil.state = .cutting →
    let c := s.coil.openCoil
    let a := min (numberAt pl 3 2) c.length
    let cut := c.length - a
    let removed := ((c.defects.filter (fun e => cut ≤ e.offset)).map Defect.points).sum
    let gradeFor (points : Nat) := if points < s.product.gradeB then Grade.a else if points < s.product.gradeC then .b
      else if points < s.product.rejectAt then .c else .reject
    let kept := (c.defects.filter (fun e => cut ≤ e.offset)).map (fun e => { e with offset := e.offset - cut })
    let used := match s.coil.next with
      | none => s.product
      | some i => if examineProduct s.tables i = none then s.tables.product i else s.product
    let changes := ∃ i, s.coil.next = some i ∧ examineProduct s.tables i = none
    let taken := used.cutLead + a
    let loaded (p : ProductRow) : Mesh := match p.kind with
      | .twineNet =>
        let step := s.tables.meshRow p.startStep
        { active := true, misses := [], counts := s.mesh.counts
          cursor := { stepIndex := p.startStep, rowsDone := 0, held := false, bandFirst := step.first
                      bandLast := step.last, taperCount := 0, phase := 0, expected := none, pitchRef := none } }
      | .rope =>
        { active := false, misses := [], counts := s.mesh.counts
          cursor := { stepIndex := 0, rowsDone := 0, held := false, bandFirst := 0, bandLast := 0, taperCount := 0
                      phase := 0, expected := none, pitchRef := none } }
    let started (h : HeadRecord) (inUse : Bool) : HeadRecord :=
      if h.state = .broken then { h with windowSum := 0, reports := 0, driftWindows := 0 }
      else { h with
        state := if inUse then .settling else .unused, windowSum := 0, reports := 0, lowRun := 0, driftWindows := 0 }
    let serves := s.coil.pendingTake = true ∧ s.iqdHeld < 4
    let entries := s.iqdHeld + if serves then 1 else 0
    let label (r : CoilRecord) : InjFrame :=
      { frame := { dst := s.tables.addressOf .packer 127, src := s.ownAddress, kind := 13,
                   payload := enc1 (if r.net then 3 else 1) ++ enc2 r.number ++ enc2 r.productId ++ enc4 r.length
                     ++ enc1 (gradeCode r.grade) ++ enc4 r.points ++ enc1 (if r.overdue then 1 else 0)
                     ++ enc1 r.defects.length ++ enc2 r.overflow ++ enc2 r.worstDeviation
                     ++ (if r.net then enc2 r.rows else []) },
        mark := .plain }
    let number := if s.coil.counter = 65535 then 1 else s.coil.counter + 1
    let cutreqs : List InjFrame :=
      if used.coilTarget ≤ taken ∧ s.coil.queue.length < 15 ∧ entries < 4 then
        [{ frame := { dst := s.tables.addressOf .cutter 127, src := s.ownAddress, kind := 9, payload := enc2 number },
           mark := .plain }]
      else []
    ∃ (t : State) (last : CoilRecord), exec (.cutdone pl) s = .next t
      ∧ last = { c with
          defects := c.defects.filter (fun e => e.offset < cut), points := last.points, length := cut
          state := .closed, grade := some (gradeFor last.points) }
      ∧ (removed ≤ c.points → last.points = c.points - removed)
      ∧ (¬serves → t.coil.queue = s.coil.queue ++ [last] ∧ t.coil.pendingTake = s.coil.pendingTake
          ∧ t.store.iqd = s.store.iqd ++ cutreqs)
      ∧ (∀ before r after, serves → s.coil.queue ++ [last] = before ++ r :: after →
          (∀ x ∈ before, x.state ≠ .closed) → r.state = .closed →
          t.coil.queue = before ++ { r with state := .labelled } :: after ∧ t.coil.pendingTake = false
          ∧ t.store.iqd = s.store.iqd ++ label r :: cutreqs)
      ∧ t.coil.openCoil.number = number
      ∧ t.coil.openCoil.length = a ∧ t.coil.openCoil.start = s.tally.haulTotal - a
      ∧ t.coil.openCoil.rows = 0 ∧ t.coil.openCoil.overdue = false ∧ t.coil.openCoil.grade = none
      ∧ t.coil.openCoil.worstDeviation = 0 ∧ t.coil.openCoil.driftWindows = 0
      ∧ t.coil.openCoil.overlengthNoted = decide (used.coilTarget + used.overlengthLimit < a)
      ∧ (taken < used.coilTarget → t.coil.openCoil.state = .opened ∧ t.coil.openCoil.cutLag = 0
          ∧ t.tally.coil =
            { running := true, current := used.coilTarget - taken, preset := used.coilTarget - taken, excess := 0 })
      ∧ (used.coilTarget ≤ taken → t.coil.openCoil.cutLag = taken - used.coilTarget
          ∧ t.tally.coil = { running := false, current := 0, preset := 0, excess := taken - used.coilTarget }
          ∧ t.coil.openCoil.state = if 15 ≤ s.coil.queue.length then .cutWaitRoom
              else if entries < 4 then .cutting else .cutWaitSend)
      ∧ t.tally.mark = (if used.markInterval = 0 then { s.tally.mark with running := false } else
          { s.tally.mark with running := true, current := used.markInterval, preset := used.markInterval })
      ∧ (¬changes → t.tally.window = s.tally.window ∧ t.tally.windowLength = s.tally.windowLength)
      ∧ (changes → t.tally.windowLength = 0 ∧ t.tally.window =
          { s.tally.window with running := true, current := used.layWindow, preset := used.layWindow })
      ∧ (c.length < numberAt pl 3 2 →
          t.faults.counters[11]? = (s.faults.counters[11]?).map (fun n => min (n + 1) 65535))
      ∧ (numberAt pl 3 2 ≤ c.length → t.faults.counters[11]? = s.faults.counters[11]?)
      ∧ t.coil.openCoil.defects = kept
      ∧ t.coil.openCoil.points = kept.foldl (fun n e => min (n + e.points) 4294967295) 0
      ∧ t.coil.openCoil.overflow = 0 ∧ t.coil.openCoil.overflowPoints = 0
      ∧ t.tally.haulTotal = s.tally.haulTotal ∧ t.tally.packedTotal = s.tally.packedTotal
      ∧ t.tally.cutwait.running = false ∧ t.tally.cutwait.current = s.tally.cutwait.current
      ∧ (¬changes → t.mesh = s.mesh ∧ ∀ u, t.head u = { s.head u with driftWindows := 0 })
      ∧ t.coil.next = none
      ∧ (s.coil.next = none → t.coil.current = s.coil.current ∧ t.coil.openCoil.productId = s.product.productId
          ∧ t.coil.openCoil.net = decide (s.product.kind = .twineNet)
          ∧ t.coil.refusedChangeovers = s.coil.refusedChangeovers)
      ∧ (∀ i, s.coil.next = some i → examineProduct s.tables i ≠ none →
          t.coil.current = s.coil.current ∧ t.coil.openCoil.productId = s.product.productId
          ∧ t.coil.openCoil.net = decide (s.product.kind = .twineNet)
          ∧ t.coil.refusedChangeovers = bump s.coil.refusedChangeovers)
      ∧ (∀ i, s.coil.next = some i → examineProduct s.tables i = none →
          t.coil.current = i ∧ t.coil.openCoil.productId = (s.tables.product i).productId
          ∧ t.coil.openCoil.net = decide ((s.tables.product i).kind = .twineNet)
          ∧ t.coil.refusedChangeovers = s.coil.refusedChangeovers
          ∧ t.mesh = loaded (s.tables.product i)
          ∧ (∀ u, t.head u = started (s.head u) (s.tables.layRow i u).inUse)
          ∧ t.tally.loaded = true)

/-- R102, R205: a TAKE is answered with the LABEL of the oldest CLOSED record, waits, or is an overrun. -/
def Obligations.TakeAnswered : Prop :=
  ∀ (pl : List Byte) (s : State), s.resetIn = false →
    let dst := s.tables.addressOf .packer 127
    (s.coil.pendingTake = true → exec (.take pl) s = .next { s with coil.takeOverruns := bump s.coil.takeOverruns })
    ∧ (s.coil.pendingTake = false → 4 ≤ s.iqdHeld → exec (.take pl) s = .next { s with coil.pendingTake := true })
    ∧ (s.coil.pendingTake = false → s.iqdHeld < 4 → (∀ r ∈ s.coil.queue, r.state ≠ .closed) → exec (.take pl) s =
        .next (s.queueIqd { dst := dst, src := s.ownAddress, kind := 13, payload := [0] }))
    ∧ (∀ before r after, s.coil.pendingTake = false → s.iqdHeld < 4 → s.coil.queue = before ++ r :: after →
        (∀ x ∈ before, x.state ≠ .closed) → r.state = .closed → exec (.take pl) s =
        .next { s.queueIqd { dst := dst, src := s.ownAddress, kind := 13,
                             payload := enc1 (if r.net then 3 else 1) ++ enc2 r.number ++ enc2 r.productId
                               ++ enc4 r.length ++ enc1 (gradeCode r.grade) ++ enc4 r.points
                               ++ enc1 (if r.overdue then 1 else 0) ++ enc1 r.defects.length ++ enc2 r.overflow
                               ++ enc2 r.worstDeviation ++ (if r.net then enc2 r.rows else []) } with
          coil.queue := before ++ { r with state := .labelled } :: after })

/-- R104, R95: a PACKED too short, of a coil not queued, of the oldest LABELLED record, and of another record. The room
made lets a coil in CUT_WAIT_ROOM go on with its cut, and the CREEP exit examination is run. A NACK goes out on IQD,
whichever side its source is mapped on (log 13). -/
def Obligations.PackedHandled : Prop :=
  ∀ (src : Addr) (pl : List Byte) (s : State), s.resetIn = false →
    let n := numberAt pl 1 2
    let nack (reason : Byte) : Frame := { dst := src, src := s.ownAddress, kind := 18, payload := [14, reason] }
    let notSent : State := { s with coil.nacksNotSent := bump s.coil.nacksNotSent }
    let nacked (reason : Byte) : State := if s.iqdHeld < 4 then s.queueIqd (nack reason) else notSent
    (pl.length < 2 → exec (.packed src pl) s = .next { s with coil.rejectedFrames := bump s.coil.rejectedFrames })
    ∧ (2 ≤ pl.length → (∀ r ∈ s.coil.queue, r.number ≠ n) →
        exec (.packed src pl) s = .next (nacked 3))
    ∧ (∀ before r after, 2 ≤ pl.length → s.coil.queue = before ++ r :: after → r.number = n → r.state = .labelled →
        (∀ x ∈ before, x.number ≠ n ∧ x.state ≠ .labelled) → s.coil.openCoil.state ≠ .cutWaitRoom →
        exec (.packed src pl) s = .next { s with
          coil.queue := before ++ after, tally.packedTotal := s.tally.packedTotal + r.length })
    ∧ (∀ before r after, 2 ≤ pl.length → s.coil.queue = before ++ r :: after → r.number = n → r.state = .labelled →
        (∀ x ∈ before, x.number ≠ n ∧ x.state ≠ .labelled) → s.coil.openCoil.state = .cutWaitRoom →
        let shorter : State := { s with
          coil.queue := before ++ after, tally.packedTotal := s.tally.packedTotal + r.length }
        let cutreq : Frame := { dst := s.tables.addressOf .cutter 127, src := s.ownAddress, kind := 9,
                                payload := enc2 s.coil.openCoil.number }
        let going : State :=
          if s.iqdHeld < 4 then { shorter.queueIqd cutreq with coil.openCoil.state := .cutting }
          else { shorter with coil.openCoil.state := .cutWaitSend }
        let exits := s.mode = .creep ∧ ∀ f ∈ s.faults.list, f.classTaken ≠ .creep
        (¬exits → exec (.packed src pl) s = .next going)
        ∧ (exits → s.store.latchPending ≠ some .halt → exec (.packed src pl) s =
            .next { going with mode := .run, store.latchPending := some .go })
        ∧ (exits → s.store.latchPending = some .halt → exec (.packed src pl) s = .next { going with mode := .run }))
    ∧ (2 ≤ pl.length → (∃ r ∈ s.coil.queue, r.number = n) →
        (∀ before r after, s.coil.queue = before ++ r :: after → r.state = .labelled →
          (∀ x ∈ before, x.state ≠ .labelled) → r.number ≠ n) →
        exec (.packed src pl) s = .next (raise .packOrder (some n) 1 0 (nacked 2)))

/-- R87, R88: a defect added to a record: its points by kind and count, merged into the newest entry of its kind
and source within 100 cm, else appended, else counted as overflow. That a merge does not saturate the extent is read by
inference (log 29). -/
def Obligations.DefectAdded : Prop :=
  (∀ n, defectPoints .layDrift n = 2 ∧ defectPoints .strandBreak n = 20 ∧ defectPoints .headStale n = 1
      ∧ defectPoints .missingKnot n = n ∧ defectPoints .needleFault n = 10 ∧ defectPoints .rowGap n = 3 * n
      ∧ defectPoints .rowPitch n = 1)
  ∧ ∀ (c : CoilRecord) (k : FaultKind) (src : Option Nat) (o x pts : Nat),
    let t := c.addDefect k src o x pts
    let apart := ∀ before e after, c.defects = before ++ e :: after → e.kind = k → e.source = src →
      (∀ y ∈ after, ¬(y.kind = k ∧ y.source = src)) → e.offset + e.extent + 100 < o
    t.points = min (c.points + pts) 4294967295
    ∧ (∀ before e after, c.defects = before ++ e :: after → e.kind = k → e.source = src →
        (∀ y ∈ after, ¬(y.kind = k ∧ y.source = src)) → o ≤ e.offset + e.extent + 100 →
        t.defects = before ++ { e with
          offset := min e.offset o
          extent := max (e.offset + e.extent) (o + x) - min e.offset o
          repeats := min (e.repeats + 1) 65535
          points := min (e.points + pts) 4294967295 } :: after
        ∧ t.overflow = c.overflow)
    ∧ (apart → c.defects.length < 24 →
        t.defects = c.defects ++ [{ kind := k, offset := o, source := src, extent := x, repeats := 1, points := pts }]
        ∧ t.overflow = c.overflow)
    ∧ (apart → 24 ≤ c.defects.length →
        t.defects = c.defects ∧ t.overflow = min (c.overflow + 1) 65535
        ∧ t.overflowPoints = min (c.overflowPoints + pts) 4294967295)

/-! ## Faults -/

/-- R35, R124, R126, R127, R130, R12, R13, R86: an occurrence is raised with the haul total as its stamp. It is counted, and one of a defect kind is added to the open coil
at the offset of its stamp; with NOTE that is all; else it is coalesced, or makes a new record at the end of the list, or
is counted as overflow, and then the request of its class is made. After a new record the ALARMs of the records neither
queued nor notified join IQU, oldest first, while IQU has room, and their queued flags are set; the older records keep
every other field. -/
def Obligations.OccurrenceHandled : Prop :=
  (∀ (k : FaultKind) (src : Option Nat) (count extent : Nat) (s : State), raise k src count extent s =
    handle { kind := k, source := src, count := count, extent := extent, stamp := s.tally.haulTotal } s)
  ∧ ∀ (o : Occurrence) (s : State),
    let c := s.tables.faultClass o.kind
    let t := handle o s
    let isOf (r : FaultRecord) : Prop := r.kind = o.kind ∧ r.source = o.source
    let stronger (a : FaultClass) : FaultClass := if a.code < c.code then c else a
    let unqueued (r : FaultRecord) : FaultRecord := { r with queued := false }
    let alarm (r : FaultRecord) : InjFrame :=
      { frame := { dst := s.tables.addressOf .master 0, src := s.ownAddress, kind := 15,
                   payload := enc1 r.kind.number ++ enc2 (r.source.getD 65535) ++ enc1 r.classTaken.code
                     ++ enc4 r.first },
        mark := .alarm r.identity }
    t.faults.counters = s.faults.counters.modify (o.kind.number - 1) (fun n => min (n + 1) 65535)
    ∧ (o.kind.isDefect = false → t.coil = s.coil)
    ∧ (o.kind.isDefect = true → t.coil = { s.coil with
        openCoil := s.coil.openCoil.addDefect o.kind o.source (o.stamp - s.coil.openCoil.start) o.extent
          (defectPoints o.kind o.count) })
    ∧ (c = .note → t.faults.list = s.faults.list ∧ t.faults.overflow = s.faults.overflow ∧ t.mode = s.mode
        ∧ t.store = s.store)
    ∧ (c ≠ .note → (∃ r ∈ s.faults.list, isOf r) →
        t.faults.list = s.faults.list.map (fun r => if r.kind = o.kind ∧ r.source = o.source then
          { r with count := min (r.count + 1) 65535, last := o.stamp, classTaken := stronger r.classTaken } else r)
        ∧ t.store.iqu = s.store.iqu ∧ t.faults.overflow = s.faults.overflow)
    ∧ (c ≠ .note → (∀ r ∈ s.faults.list, ¬isOf r) → 16 ≤ s.faults.list.length →
        t.faults.list = s.faults.list ∧ t.faults.overflow = min (s.faults.overflow + 1) 65535
        ∧ t.store.iqu = s.store.iqu)
    ∧ (c ≠ .note → (∀ r ∈ s.faults.list, ¬isOf r) → s.faults.list.length < 16 → ∃ r, t.faults.list.getLast? = some r
        ∧ t.faults.list.length = s.faults.list.length + 1
        ∧ r.kind = o.kind ∧ r.source = o.source ∧ r.classTaken = c ∧ r.count = 1 ∧ r.first = o.stamp
        ∧ r.last = o.stamp ∧ r.notified = false
        ∧ (s.iquHeld < 4 → (∀ x ∈ s.faults.list, x.notified = true ∨ x.queued = true) →
            r.queued = true ∧ t.store.iqu = s.store.iqu ++
              [{ frame := { dst := s.tables.addressOf .master 0, src := s.ownAddress, kind := 15,
                            payload := enc1 o.kind.number ++ enc2 (o.source.getD 65535) ++ enc1 c.code
                              ++ enc4 o.stamp },
                 mark := .alarm r.identity }])
        ∧ (4 ≤ s.iquHeld → r.queued = false ∧ t.store.iqu = s.store.iqu ∧ t.faults.list = s.faults.list ++ [r])
        ∧ t.faults.list.map unqueued = s.faults.list.map unqueued ++ [unqueued r]
        ∧ t.faults.overflow = s.faults.overflow)
    ∧ (c ≠ .note → s.FaultsListed → (∀ r ∈ s.faults.list, ¬isOf r) → s.faults.list.length < 16 →
        let records : List FaultRecord := s.faults.list ++
          [{ identity := s.faults.nextIdentity, kind := o.kind, source := o.source, classTaken := c, count := 1,
             first := o.stamp, last := o.stamp, queued := false, notified := false }]
        let served := (records.filter (fun r => !r.notified && !r.queued)).take (4 - s.iquHeld)
        t.faults.list = records.map (fun r => if r ∈ served then { r with queued := true } else r)
        ∧ t.store.iqu = s.store.iqu ++ served.map alarm)
    ∧ (c = .creep → t.mode = (if s.mode = .run then .creep else s.mode)
        ∧ (s.mode = .run → s.store.latchPending ≠ some .halt → t.store.latchPending = some .creep)
        ∧ (s.mode ≠ .run → t.store.latchPending = s.store.latchPending))
    ∧ (c = .halt → t.mode = (if s.mode = .parked then .parked else .halted) ∧ t.store.latchPending = some .halt
        ∧ (s.mode = .threading ∨ s.mode = .run ∨ s.mode = .creep → t.tally.haulwatch.running = false
            ∧ t.tally.haulwatch.current = s.tally.haulwatch.current))
    ∧ (c = .alarm → t.mode = s.mode ∧ t.store.latchPending = s.store.latchPending)

/-- R14, R131, R132: CLEAR_FAULT and CLEAR_ALL remove records, keep the counts, and run the CREEP exit
examination. -/
def Obligations.FaultsCleared : Prop :=
  ∀ (src : Addr) (k : Byte) (source : BitVec 16) (s : State), s.TakesRequests →
    let ends (l : List FaultRecord) : Prop :=
      s.mode = .creep ∧ (∀ r ∈ l, r.classTaken ≠ .creep) ∧ s.coil.openCoil.state ≠ .cutWaitRoom
    let without (l : List FaultRecord) : State := { s with faults.list := l }
    let cleared (c : Instr) (l : List FaultRecord) : Prop :=
      (¬ends l → exec c s = .next ((without l).answered src [0]))
      ∧ (ends l → s.store.latchPending ≠ some .halt → exec c s =
          .next (State.answered { without l with mode := .run, store.latchPending := some .go } src [0]))
      ∧ (ends l → s.store.latchPending = some .halt → exec c s =
          .next (State.answered { without l with mode := .run } src [0]))
    cleared (.clearAll src) []
    ∧ (FaultKind.ofNumber k.toNat = none → exec (.clearFault src k source) s = .next (s.answered src [3]))
    ∧ (∀ kind, FaultKind.ofNumber k.toNat = some kind →
        let from_ := if source.toNat = 65535 ∧ kind.sourceIsCoil = false then none else some source.toNat
        let rest := s.faults.list.filter (fun r => !decide (r.kind = kind ∧ r.source = from_))
        (rest = s.faults.list → exec (.clearFault src k source) s = .next (s.answered src [8]))
        ∧ (rest ≠ s.faults.list → cleared (.clearFault src k source) rest))

/-! ## Management -/

/-- R194: the modes in which each request is available. R206: the command of each request is its MREQ on Port U (log 4).
R170, R171, R193: an MREQ is dropped while another is held, held while IQU is full, and else taken, carried
out and answered. One dropped makes an occurrence whose source is its source's address (handled as in `OccurrenceHandled`).
It is counted as a good frame and as consumed first (R154, R180; logs 4 and 12), and a request that is answered leaves
its MREP at the end of IQU (R192). -/
def Obligations.MreqHandled : Prop :=
  (∀ (src : Addr) (reply : List Byte) (s : State), s.answered src reply = { s with
    portU.counters.framesGood := min (s.portU.counters.framesGood + 1) 65535
    classifier.consumed := min (s.classifier.consumed + 1) 65535
    store.iqu := s.store.iqu ++
      [{ frame := { dst := src, src := s.ownAddress, kind := 17, payload := reply }, mark := .plain }] })
  ∧
  (∀ (r : Request) (m : Mode), r.availableIn m = true ↔ match r with
    | .setProduct _ | .setAddress _ | .reset => m = .parked
    | .setNext _ => m ≠ .parked
    | .release => m = .halted
    | .readRow _ _ _ | .writeFields _ _ _ | .setMode _ | .cut | .clearFault _ _ | .clearAll | .readFaults _ _
    | .readCoil _ _ | .readHead _ | .readMesh _ | .readStatus _ | .readCounters _ | .clearCounters => True)
  ∧ (∀ (src : Addr) (s : State),
      let sent (r : Request) : Host.Outcome State Fault Refusal := exec (.mreq .u src r.encode) s
      (∀ t row page, exec (.readRow src t row page) s = sent (.readRow t row page))
      ∧ (∀ t row ps, exec (.writeFields src t row ps) s = sent (.writeFields t row ps))
      ∧ (∀ target, exec (.setMode src target) s = sent (.setMode target))
      ∧ (∀ slot, exec (.setProduct src slot) s = sent (.setProduct slot)
          ∧ exec (.setNext src slot) s = sent (.setNext slot))
      ∧ exec (.release src) s = sent .release ∧ exec (.cut src) s = sent .cut
      ∧ (∀ kind source, exec (.clearFault src kind source) s = sent (.clearFault kind source))
      ∧ exec (.clearAll src) s = sent .clearAll
      ∧ (∀ part index, exec (.readFaults src part index) s = sent (.readFaults part index))
      ∧ (∀ n page, exec (.readCoil src n page) s = sent (.readCoil n page))
      ∧ (∀ unit, exec (.readHead src unit) s = sent (.readHead unit))
      ∧ (∀ page, exec (.readMesh src page) s = sent (.readMesh page)
          ∧ exec (.readStatus src page) s = sent (.readStatus page))
      ∧ (∀ port, exec (.readCounters src port) s = sent (.readCounters port))
      ∧ exec (.clearCounters src) s = sent .clearCounters
      ∧ (∀ a, exec (.setAddress src a) s = sent (.setAddress a))
      ∧ exec (.reset src) s = sent .reset)
  ∧ ∀ (p : Port) (src : Addr) (pl : List Byte) (s : State), s.TakesFrames →
    let f : Frame := { dst := s.ownAddress, src := src, kind := 16, payload := pl }
    let counted := (s.frameCounted p).countClassifier (fun c => { c with consumed := bump c.consumed })
    let answered (reply : List Byte) : State :=
      counted.queueIqu { dst := src, src := s.ownAddress, kind := 17, payload := reply } .plain
    (s.store.hold.isSome = true → ∃ t, exec (.mreq p src pl) s = .next t
        ∧ t = { raise .mgmtOverrun (some src.toNat) 1 0 { counted with store.arriving := true } with
            store.arriving := false }.setHoldOut
        ∧ t.faults.counters = s.faults.counters.modify 18 (fun n => min (n + 1) 65535)
        ∧ t.store.hold = s.store.hold ∧ t.store.fqd = s.store.fqd ∧ t.coil = s.coil ∧ t.tables = s.tables
        ∧ t.classifier = counted.classifier ∧ t.portU = counted.portU ∧ t.portD = counted.portD)
    ∧ (s.store.hold = none → s.iquHeld = 4 → exec (.mreq p src pl) s =
        .next { counted with store.hold := some f }.setHoldOut)
    ∧ (s.store.hold = none → s.iquHeld < 4 → parseRequest pl = none →
        exec (.mreq p src pl) s = .next (answered [1]))
    ∧ (∀ r, s.store.hold = none → s.iquHeld < 4 → parseRequest pl = some r → r.availableIn s.mode = false →
        exec (.mreq p src pl) s = .next (answered [4]))
    ∧ (∀ r, s.store.hold = none → s.iquHeld < 4 → parseRequest pl = some r → r.availableIn s.mode = true →
        let done := carryOut r { counted with store.arriving := true, store.reserved := true }
        ∃ t, exec (.mreq p src pl) s = .next t
          ∧ t.store.iqu = done.1.store.iqu ++
              [{ frame := { dst := src, src := s.ownAddress, kind := 17, payload := done.2.status :: done.2.data },
                 mark := done.2.mark }]
          ∧ t.mode = done.1.mode ∧ t.tables = done.1.tables ∧ t.tally = done.1.tally ∧ t.lay = done.1.lay
          ∧ t.mesh = done.1.mesh ∧ t.coil = done.1.coil ∧ t.faults = done.1.faults
          ∧ t.classifier = done.1.classifier ∧ t.portU = done.1.portU ∧ t.portD = done.1.portD)

/-- R198, R206, R207: READ_ROW of a row of each of the seven tables, its fields in the order of R207, seven a page, each
in four characters after the number of the page's first field; and its refusals. R123, R176, R185, R195: the row that
belongs to an address, to a kind row and a direction, to a slot, to a slot and a unit, to a step and to a fault kind, and
the rows of the product in force (R108, R109). -/
def Obligations.ReadRowAnswered : Prop :=
  (∀ (t : Tables) (a row : Nat) (slot : Slot) (unit : HeadUnit) (step : StepIndex) (k : FaultKind),
    t.station a = t.stations.getD a StationRow.powerUp
    ∧ t.action row .d = t.actions.getD (2 * row) .forward ∧ t.action row .u = t.actions.getD (2 * row + 1) .forward
    ∧ t.product slot = t.products.getD slot.val ProductRow.powerUp
    ∧ t.layRow slot unit = t.lays.getD (slot.val * 24 + unit.val) LayRow.powerUp
    ∧ t.meshRow step = t.mesh.getD step.val MeshRow.powerUp
    ∧ t.faultClass k = t.faultClasses.getD (k.number - 1) .note)
  ∧ (∀ (s : State) (a : Addr) (unit : HeadUnit), s.stationOf a = s.tables.station a.toNat
    ∧ s.product = s.tables.product s.coil.current ∧ s.layRow unit = s.tables.layRow s.coil.current unit)
  ∧ ∀ (src : Addr) (table : Byte) (row : BitVec 16) (page : Byte) (s : State), s.TakesRequests →
    let n := row.toNat
    let l := s.tables.line
    let flag (b : Bool) : Int := if b then 1 else 0
    let read := exec (.readRow src table row page) s
    let gives (fields : List Int) : Prop :=
      (fields.length ≤ 7 * page.toNat → read = .next (s.answered src [2]))
      ∧ (7 * page.toNat < fields.length → read = .next (s.answered src ([0] ++ enc1 (7 * page.toNat)
          ++ ((fields.drop (7 * page.toNat)).take 7).flatMap (fun v => enc4 (v % 4294967296).toNat))))
    (TableName.ofCode table.toNat = none → read = .next (s.answered src [3]))
    ∧ (∀ name, TableName.ofCode table.toNat = some name → name.hasRow n = false → read = .next (s.answered src [2]))
    ∧ (table = 1 → n = 0 → gives [s.ownAddress.toNat, flag l.parityU, flag l.parityD, l.holdThreshold, l.haulWatch,
        l.cutWait, l.creepHaul, l.creepHead])
    ∧ (table = 2 → n < 128 →
        let r := s.tables.station n
        gives [r.role.code, r.unit.val, match r.side with | .u => 0 | .d => 1])
    ∧ (table = 3 → n < 32 → gives [(s.tables.actions.getD n .forward).code])
    ∧ (table = 4 → n < 8 →
        let r := s.tables.products.getD n ProductRow.powerUp
        gives [flag r.valid, r.productId, r.kind.code, r.strandCount, r.runTolerance, r.threadTolerance,
          r.breakFilter, r.tensionFloor, r.coilTarget, r.cutLead, r.overlengthLimit, r.markInterval, r.layWindow,
          r.maxHaulSpeed, r.maxHeadSpeed, r.startStep.val, r.rowPitch, r.pitchTolerance, r.needleLimit, r.gradeB,
          r.gradeC, r.rejectAt])
    ∧ (table = 5 → n < 192 →
        let r := s.tables.lays.getD n LayRow.powerUp
        gives [flag r.inUse, r.direction.code, r.targetLay, r.takeUp])
    ∧ (table = 6 → n < 64 →
        let r := s.tables.mesh.getD n MeshRow.powerUp
        gives [flag r.valid, r.rows, r.first, r.last, r.widenLeft, r.widenRight, r.taperEvery, r.selvedgeWidth,
          r.selvedgeCode, match r.next with | none => 64 | some i => i.val])
    ∧ (table = 7 → 1 ≤ n → n ≤ 19 → gives [(s.tables.faultClasses.getD (n - 1) .note).code])

/-- R56, R206: READ_HEAD. -/
def Obligations.ReadHeadAnswered : Prop :=
  ∀ (src : Addr) (unit : Byte) (s : State), s.TakesRequests →
    (24 ≤ unit.toNat → exec (.readHead src unit) s = .next (s.answered src [2]))
    ∧ (∀ u : HeadUnit, u.val = unit.toNat →
        let h := s.lay.heads.getD u.val HeadRecord.cleared
        s.head u = h ∧ exec (.readHead src unit) s = .next (s.answered src ([0] ++ enc1 h.state.code
          ++ enc4 (h.windowSum % 4294967296).toNat ++ enc2 h.reports ++ enc2 h.lastTension ++ enc1 h.lowRun
          ++ enc1 h.lastStrands ++ enc4 h.lastLay ++ enc2 h.lastDeviation ++ enc2 h.driftWindows
          ++ enc1 (if (s.layRow u).inUse then 1 else 0))))

/-- R135, R206: READ_FAULTS, the records part from a list index and the counters part from a kind. -/
def Obligations.ReadFaultsAnswered : Prop :=
  ∀ (src : Addr) (part index : Byte) (s : State), s.TakesRequests →
    let head := [0] ++ enc1 s.faults.list.length ++ enc2 s.faults.overflow
    (part ≠ 0 → part ≠ 1 → exec (.readFaults src part index) s = .next (s.answered src [3]))
    ∧ (part = 0 → 15 < index.toNat → exec (.readFaults src part index) s = .next (s.answered src [2]))
    ∧ (part = 0 → index.toNat ≤ 15 → s.faults.list.length ≤ index.toNat →
        exec (.readFaults src part index) s = .next (s.answered src head))
    ∧ (∀ r, part = 0 → index.toNat ≤ 15 → s.faults.list[index.toNat]? = some r →
        exec (.readFaults src part index) s = .next (s.answered src (head ++ enc1 r.kind.number
          ++ enc2 (r.source.getD 65535) ++ enc1 r.classTaken.code ++ enc2 r.count ++ enc4 r.first ++ enc4 r.last
          ++ enc1 ((if r.queued then 1 else 0) + (if r.notified then 2 else 0)))))
    ∧ (part = 1 → (index = 0 ∨ 19 < index.toNat) → exec (.readFaults src part index) s = .next (s.answered src [2]))
    ∧ (part = 1 → 1 ≤ index.toNat → index.toNat ≤ 19 → exec (.readFaults src part index) s =
        .next (s.answered src ([0] ++ enc2 s.faults.overflow
          ++ ((s.faults.counters.drop (index.toNat - 1)).take 14).flatMap enc2)))

/-- R105, R206: READ_COIL of the open coil (255) or a queued one: page 0 the record, page n its defect entry. -/
def Obligations.ReadCoilAnswered : Prop :=
  ∀ (src : Addr) (record page : Byte) (s : State), s.TakesRequests →
    let named := if record = 255 then some s.coil.openCoil else s.coil.queue[record.toNat]?
    (named = none → exec (.readCoil src record page) s = .next (s.answered src [2]))
    ∧ (∀ c, named = some c → 24 < page.toNat → exec (.readCoil src record page) s = .next (s.answered src [2]))
    ∧ (∀ c, named = some c → page = 0 → exec (.readCoil src record page) s =
        .next (s.answered src ([0] ++ enc2 c.number ++ enc2 c.productId
          ++ enc1 (c.state.code + (if c.net then 8 else 0) + (if c.overdue then 16 else 0)
              + (if c.overlengthNoted then 32 else 0))
          ++ enc1 (gradeCode c.grade) ++ enc4 c.length ++ enc4 c.start ++ enc2 (if c.net then c.rows else 0)
          ++ enc2 c.worstDeviation ++ enc2 c.driftWindows ++ enc1 c.defects.length ++ enc2 c.overflow
          ++ enc4 c.points ++ enc4 c.cutLag)))
    ∧ (∀ c e, named = some c → 1 ≤ page.toNat → page.toNat ≤ 24 → c.defects[page.toNat - 1]? = some e →
        exec (.readCoil src record page) s = .next (s.answered src ([0] ++ enc1 e.kind.number ++ enc4 e.offset
          ++ enc2 (e.source.getD 65535) ++ enc4 e.extent ++ enc2 e.repeats ++ enc4 e.points)))
    ∧ (∀ c, named = some c → 1 ≤ page.toNat → page.toNat ≤ 24 → c.defects.length < page.toNat →
        exec (.readCoil src record page) s = .next (s.answered src [0]))

/-- R81, R206: READ_MESH: the cursor, the counts, the miss table by 7 entries a page. While the expected row is
UNSYNCED its two characters are a free value (log 21). -/
def Obligations.ReadMeshAnswered : Prop :=
  ∀ (src : Addr) (page : Byte) (s : State), s.TakesRequests →
    let c := s.mesh.cursor
    let k := s.mesh.counts
    let before := [0] ++ enc1 (if s.mesh.active then 1 else 0) ++ enc1 c.stepIndex.val ++ enc2 c.rowsDone
      ++ enc1 (if c.held then 1 else 0) ++ enc2 c.bandFirst ++ enc2 c.bandLast ++ enc1 c.taperCount ++ enc1 c.phase
    let after := enc4 (c.pitchRef.getD 4294967295) ++ enc1 s.mesh.misses.length
    (∀ e, page = 0 → c.expected = some e →
      exec (.readMesh src page) s = .next (s.answered src (before ++ [1] ++ enc2 e ++ after)))
    ∧ (page = 0 → c.expected = none → ∃ v, exec (.readMesh src page) s =
        .next (State.answered { s with freeDraws := s.freeDraws + 1 } src (before ++ [0] ++ enc2 v ++ after)))
    ∧ (page = 1 → exec (.readMesh src page) s = .next (s.answered src ([0] ++ enc2 k.rejectedRowdone
        ++ enc2 k.ignoredRows ++ enc2 k.duplicateRows ++ enc2 k.strayPositions ++ enc2 k.untrackedMisses
        ++ enc2 k.refusedTapers ++ enc2 k.refusedSteps)))
    ∧ (2 ≤ page.toNat → page.toNat ≤ 6 → exec (.readMesh src page) s = .next (s.answered src ([0]
        ++ enc1 s.mesh.misses.length ++ ((s.mesh.misses.drop (7 * (page.toNat - 2))).take 7).flatMap
            (fun e => enc2 e.position ++ enc1 e.misses ++ enc1 (if e.flagged then 1 else 0)))))
    ∧ (6 < page.toNat → exec (.readMesh src page) s = .next (s.answered src [2]))

/-- R37, R120, R174, R199, R206: READ_STATUS by page. At its taking its own slot and its reply's entry are held
(R163), and its MREQ has been counted as consumed (logs 4 and 12). -/
def Obligations.ReadStatusAnswered : Prop :=
  ∀ (src : Addr) (page : Byte) (s : State), s.TakesRequests →
    let y := s.tally
    let k := s.classifier
    let flag (b : Bool) : List Byte := enc1 (if b then 1 else 0)
    let length (running : Bool) (current preset : Nat) : List Byte := flag running ++ enc4 current ++ enc4 preset
    let time (c : OneShot) : List Byte := flag c.running ++ enc2 c.current ++ enc2 c.preset
    let answers (data : List Byte) : Prop := exec (.readStatus src page) s = .next (s.answered src ([0] ++ data))
    (page = 0 → answers (enc1 s.mode.code ++ enc1 s.ownAddress.toNat ++ enc1 s.coil.current.val
      ++ enc2 s.product.productId ++ enc1 (match s.coil.next with | some i => i.val | none => 255)
      ++ enc2 s.coil.refusedChangeovers ++ enc4 y.haulTotal ++ enc4 y.packedTotal ++ flag y.loaded
      ++ enc1 (s.freeForwarding - 1) ++ enc1 s.store.fqd.length ++ enc1 s.store.fqu.length
      ++ enc1 s.iqdHeld ++ enc1 (s.iquHeld + 1) ++ enc1 (latchCode s.store.latchPending)
      ++ enc1 (latchCode s.store.latchInFlight) ++ [0] ++ flag s.portU.transmitter.isSome
      ++ flag s.portD.transmitter.isSome))
    ∧ (page = 1 → answers (length y.coil.running y.coil.current y.coil.preset
        ++ length y.mark.running y.mark.current y.mark.preset
        ++ length y.window.running y.window.current y.window.preset))
    ∧ (page = 2 → answers (time y.haulwatch ++ time y.cutwait ++ enc4 y.coil.excess ++ enc2 y.haulwatch.excess
        ++ enc2 y.cutwait.excess ++ enc4 y.windowLength ++ enc2 y.mark.skipped ++ enc2 y.window.skipped))
    ∧ (page = 3 → answers ([y.haulTaken, y.shortHaul, y.clippedHaul, s.lay.rejectedTurns, s.lay.ignoredTurns,
        s.coil.rejectedFrames, s.coil.marksMissed, s.coil.takeOverruns, s.coil.nacksNotSent].flatMap enc2))
    ∧ (page = 4 → answers ([k.unknownSources, k.unknownDestinations, bump k.consumed, k.unsupported,
        k.unsupportedNacksNotSent, k.blocked, k.shortSetpoints, k.haltedGos, k.queueDrops, k.clampedSetpoints,
        k.zeroedSetpoints].flatMap enc2))
    ∧ (4 < page.toNat → exec (.readStatus src page) s = .next (s.answered src [2]))

/-- R154, R206: READ_COUNTERS answers with the eight counters of the named port; CLEAR_COUNTERS sets all eight of
both ports to 0 and touches no other count. The MREQ that carries the request has been counted in Port U's frames good
before it is taken: a READ_COUNTERS of Port U shows it, and a CLEAR_COUNTERS clears it. -/
def Obligations.PortCountersReadAndCleared : Prop :=
  ∀ (src : Addr) (port : Byte) (s : State), s.TakesRequests →
    (1 < port.toNat → exec (.readCounters src port) s = .next (s.answered src [3]))
    ∧ (∀ p : Port, port.toNat = (match p with | .u => 0 | .d => 1) →
        let c := (s.port p).counters
        let good := match p with | .u => bump c.framesGood | .d => c.framesGood
        exec (.readCounters src port) s = .next (s.answered src ([0, port] ++ enc2 good ++ enc2 c.checkDrops
          ++ enc2 c.charErrorDrops ++ enc2 c.formatDrops ++ enc2 c.truncatedDrops ++ enc2 c.poolDrops
          ++ enc2 c.charErrors ++ enc2 c.framesSent)))
    ∧ (let zero : PortCounters := { framesGood := 0, checkDrops := 0, charErrorDrops := 0, formatDrops := 0,
                                    truncatedDrops := 0, poolDrops := 0, charErrors := 0, framesSent := 0 }
       exec (.clearCounters src) s =
        .next { s.answered src [0] with portU.counters := zero, portD.counters := zero })

/-- R195, R196, R197, R114: WRITE_FIELDS writes all its pairs or none; a range, the mode and the selections guard it: outside
PARKED the product row and the lay rows of a selected slot are BUSY, and those of the other slots are written; a
write of the hold threshold, alone or among others, sets HOLD-OUT anew. The ranges are those of R123, R176, R185, R195
and R204, field by field; what is written is stated as READ_ROW would show the rows. -/
def Obligations.FieldsWritten : Prop :=
  ∀ (src : Addr) (table : Byte) (row : BitVec 16) (pairs : List (Byte × BitVec 32)) (s : State), s.TakesRequests →
    pairs ≠ [] → pairs.length ≤ 5 → (pairs.map Prod.fst).Nodup →
    let write := exec (.writeFields src table row pairs) s
    let selected (slot : Nat) : Prop := s.coil.current.val = slot ∨ s.coil.next.map Fin.val = some slot
    let open_ (name : TableName) : Prop := s.mode = .parked ∨ (name = .products ∧ ¬selected row.toNat)
      ∨ (name = .lays ∧ ¬selected (row.toNat / 24))
    let between (lo hi v : Nat) : Prop := lo ≤ v ∧ v ≤ hi
    let flag := between 0 1
    let count16 := between 0 65535
    let widen (v : Nat) : Prop := v ≤ 2 ∨ between 4294967294 4294967295 v
    -- what the fields of a row may be written with, in field order
    let allowed (name : TableName) : List (Nat → Prop) := match name with
      | .line => [fun _ => False, flag, flag, between 1 12, between 10 60000, between 10 60000, count16, count16]
      | .stations => [between 0 7, between 0 23, flag]
      | .actions => [fun v => v ≤ 2 ∧ (v = 1 → row.toNat = 8)]
      | .products => [flag, between 1 65535, flag, between 1 8, between 5 200, between 5 500, between 1 8,
          between 0 1023, between 100 10000000, count16, count16, fun v => v = 0 ∨ between 100 65535 v,
          between 50 65535, count16, count16, between 0 63, count16, between 0 1000, between 2 15, count16, count16,
          count16]
      | .lays => [flag, flag, between 1 20000, between 1000 2000]
      | .mesh => [flag, between 1 4095, between 0 511, between 0 511, widen, widen, between 1 255, between 0 8,
          between 0 15, between 0 64]
      | .faults => [fun v => v ≤ 3 ∧ row.toNat ≠ 1 ∧ row.toNat ≠ 15]
    let good (name : TableName) : Prop :=
      ∀ q ∈ pairs, ∃ ok, (allowed name)[q.1.toNat]? = some ok ∧ ok q.2.toNat
    let shown (name : TableName) (q : Byte × BitVec 32) : Int :=
      if name = .mesh ∧ (q.1 = 4 ∨ q.1 = 5) then q.2.toInt else q.2.toNat
    (TableName.ofCode table.toNat = none → write = .next (s.answered src [3]))
    ∧ (∀ name, TableName.ofCode table.toNat = some name →
        (name.hasRow row.toNat = false → write = .next (s.answered src [2]))
        ∧ (name.hasRow row.toNat = true → s.mode ≠ .parked → name ≠ .products → name ≠ .lays →
            write = .next (s.answered src [4]))
        ∧ (name.hasRow row.toNat = true → s.mode ≠ .parked → name = .products →
            selected row.toNat → write = .next (s.answered src [5]))
        ∧ (name.hasRow row.toNat = true → s.mode ≠ .parked → name = .lays →
            selected (row.toNat / 24) → write = .next (s.answered src [5]))
        ∧ (name.hasRow row.toNat = true → open_ name → s.tables.writeRow name row.toNat pairs = none →
            write = .next (s.answered src [3]))
        ∧ (∀ tables, name.hasRow row.toNat = true → open_ name → (name ≠ .line ∨ ∀ q ∈ pairs, q.1 ≠ 3) →
            s.tables.writeRow name row.toNat pairs = some tables →
            write = .next (State.answered { s with tables := tables } src [0]))
        ∧ (∀ tables, name.hasRow row.toNat = true → open_ name → name = .line → (∃ q ∈ pairs, q.1 = 3) →
            s.tables.writeRow name row.toNat pairs = some tables →
            write = .next (State.answered { s with tables := tables } src [0]).setHoldOut)
        ∧ (name.hasRow row.toNat = true → open_ name → ¬good name → write = .next (s.answered src [3]))
        ∧ (name.hasRow row.toNat = true → open_ name → good name → s.tables.InRange → ∃ tables,
            let t : State := { s with tables := tables }
            s.tables.writeRow name row.toNat pairs = some tables
            ∧ t.rowFields name row.toNat =
                pairs.foldl (fun l q => l.set q.1.toNat (shown name q)) (s.rowFields name row.toNat)
            ∧ ∀ n r, n.hasRow r = true → (n ≠ name ∨ r ≠ row.toNat) → t.rowFields n r = s.rowFields n r))
    ∧ (∀ v : BitVec 32, table = 4 → row.toNat < 8 → pairs = [(8, v)] → s.mode = .parked →
        let p := s.tables.products.getD row.toNat ProductRow.powerUp
        (100 ≤ v.toNat → v.toNat ≤ 10000000 → write = .next (State.answered { s with
          tables.products := s.tables.products.set row.toNat { p with coilTarget := v.toNat } } src [0]))
        ∧ (v.toNat < 100 ∨ 10000000 < v.toNat → write = .next (s.answered src [3])))
    ∧ (∀ v : BitVec 32, table = 1 → row = 0 → pairs = [(3, v)] → s.mode = .parked → 1 ≤ v.toNat → v.toNat ≤ 12 →
        write = .next (State.answered { s with tables.line.holdThreshold := v.toNat } src [0]).setHoldOut)

/-- R4, R5: what the consistency examination answers: the first row of the station map that fails, in the terms of R5,
or row 0 without a MASTER; then the current product, then the next (the examination of a product stands in
`ProductSet`). R3, R8 to R11, R30: SET_MODE by the target and the mode in force. At an entry to THREADING with the tally-loaded flag
clear the open coil takes its product and the length counters are preset; a COIL with nothing left to count requests the
cut of an OPEN coil at once, by a CUTREQ where the queue and IQD have room, with QUEUE_FULL on a full queue (R26, R94;
handled as in `OccurrenceHandled`, the reply's entry reserved, R163). Every entry to
THREADING from PARKED sets the heads (R8, R40) and the mesh monitor (R63): a load where its state does not match the
product's kind, else nothing of it but the expected row and the pitch reference. -/
def Obligations.ModeSet : Prop :=
  (∀ s : State,
    let row (a : Nat) : StationRow := s.tables.station a
    let faulty (a : Nat) : Prop :=
      ((a = 127 ∨ a = s.ownAddress.toNat) ∧ (row a).role ≠ .unused)
      ∨ ((row a).role = .master ∧ ((row a).side ≠ .u ∨ ∃ b, b < a ∧ (row b).role = .master))
      ∨ (((row a).role = .knotter ∨ (row a).role = .hauloff ∨ (row a).role = .cutter ∨ (row a).role = .packer)
          ∧ ((row a).side ≠ .d ∨ ∃ b, b < a ∧ (row b).role = (row a).role))
      ∨ ((row a).role = .head ∧ ∃ b, b < a ∧ (row b).role = .head ∧ (row b).unit = (row a).unit)
    (∀ a, faulty a → (∀ b, b < a → ¬faulty b) → s.examineAll = some (2, a))
    ∧ ((∀ a, ¬faulty a) → (∀ a, (row a).role ≠ .master) → s.examineAll = some (2, 0))
    ∧ ((∀ a, ¬faulty a) → (∃ a, (row a).role = .master) →
        (examineProduct s.tables s.coil.current ≠ none →
          s.examineAll = examineProduct s.tables s.coil.current)
        ∧ (examineProduct s.tables s.coil.current = none → s.examineAll = match s.coil.next with
            | none => none
            | some i => examineProduct s.tables i)))
  ∧ ∀ (src : Addr) (target : Byte) (s : State), s.TakesRequests →
    let set := exec (.setMode src target) s
    let ok := set = .next (s.answered src [0])
    let notInMode := set = .next (s.answered src [4])
    let watch : OneShot :=
      { running := true, current := s.tables.line.haulWatch, preset := s.tables.line.haulWatch, excess := 0 }
    let loaded (p : ProductRow) : Mesh := match p.kind with
      | .twineNet =>
        let step := s.tables.meshRow p.startStep
        { active := true, misses := [], counts := s.mesh.counts
          cursor := { stepIndex := p.startStep, rowsDone := 0, held := false, bandFirst := step.first
                      bandLast := step.last, taperCount := 0, phase := 0, expected := none, pitchRef := none } }
      | .rope =>
        { active := false, misses := [], counts := s.mesh.counts
          cursor := { stepIndex := 0, rowsDone := 0, held := false, bandFirst := 0, bandLast := 0, taperCount := 0
                      phase := 0, expected := none, pitchRef := none } }
    let entered (t : State) : Prop :=
      (∀ u, t.head u = { s.head u with
        state := if (s.layRow u).inUse then .settling else .unused, windowSum := 0, reports := 0, lowRun := 0 })
      ∧ t.mesh = (if s.mesh.active = decide (s.product.kind = .twineNet) then match s.product.kind with
          | .twineNet => { s.mesh with cursor.expected := none, cursor.pitchRef := none }
          | .rope => s.mesh
        else loaded s.product)
    (2 < target.toNat → set = .next (s.answered src [3]))
    ∧ (target = 0 → (s.mode = .parked → ok) ∧ (s.mode = .run ∨ s.mode = .creep → notInMode)
        ∧ (s.mode = .threading ∨ s.mode = .halted → set = .next (State.answered { s with mode := .parked } src [0])))
    ∧ (target = 2 → (s.mode = .run → ok) ∧ (s.mode = .parked ∨ s.mode = .creep ∨ s.mode = .halted → notInMode)
        ∧ (s.mode = .threading →
            set = .next (State.answered { s with mode := .run, tally.haulwatch := watch } src [0])))
    ∧ (target = 1 → (s.mode = .threading → ok) ∧ (s.mode = .halted → notInMode)
        ∧ (s.mode = .run ∨ s.mode = .creep →
            set = .next (State.answered { s with mode := .threading, tally.haulwatch.running := false } src [0]))
        ∧ (∀ table row, s.mode = .parked → s.examineAll = some (table, row) →
            set = .next (s.answered src ([7] ++ enc1 table ++ enc2 row)))
        ∧ (s.mode = .parked → s.examineAll = none → s.tally.loaded = true → ∃ t, set = .next t
            ∧ t.mode = .threading ∧ t.tally = s.tally ∧ t.coil = s.coil ∧ entered t
            ∧ t.store.iqu = (s.answered src [0]).store.iqu ∧ t.store.iqd = s.store.iqd ∧ t.faults = s.faults)
        ∧ (s.mode = .parked → s.examineAll = none → s.tally.loaded = false →
            let q := s.product
            let c := s.coil.openCoil
            let taken := q.cutLead + c.length
            let cutreq : InjFrame := { frame := { dst := s.tables.addressOf .cutter 127, src := s.ownAddress, kind := 9,
                                                  payload := enc2 c.number }, mark := .plain }
            let replied := (s.answered src [0]).store.iqu
            let full := raise .queueFull (some c.number) 1 0 { s with mode := .threading, store.reserved := true }
            ∃ t, set = .next t
              ∧ entered t
              ∧ t.coil.openCoil.productId = q.productId ∧ t.coil.openCoil.net = decide (q.kind = .twineNet)
              ∧ t.coil.openCoil.length = c.length ∧ t.coil.openCoil.number = c.number ∧ t.coil.queue = s.coil.queue
              ∧ t.tally.loaded = true ∧ t.tally.haulTotal = s.tally.haulTotal ∧ t.tally.windowLength = 0
              ∧ t.tally.window =
                  { s.tally.window with running := true, current := q.layWindow, preset := q.layWindow }
              ∧ t.tally.mark = (if q.markInterval = 0 then { s.tally.mark with running := false } else
                  { s.tally.mark with running := true, current := q.markInterval, preset := q.markInterval })
              ∧ t.store.iqu.getLast? = some
                  { frame := { dst := src, src := s.ownAddress, kind := 17, payload := [0] }, mark := .plain }
              ∧ (taken < q.coilTarget → t.mode = .threading ∧ t.coil.openCoil.state = c.state
                  ∧ t.coil.openCoil.cutLag = c.cutLag ∧ t.faults = s.faults
                  ∧ t.store.iqu = replied ∧ t.store.iqd = s.store.iqd ∧ t.tally.coil =
                    { running := true, current := q.coilTarget - taken, preset := q.coilTarget - taken, excess := 0 })
              ∧ (q.coilTarget ≤ taken →
                  t.tally.coil = { running := false, current := 0, preset := 0, excess := taken - q.coilTarget }
                  ∧ (c.state ≠ .opened → t.mode = .threading ∧ t.coil.openCoil.state = c.state
                      ∧ t.faults = s.faults ∧ t.store.iqu = replied ∧ t.store.iqd = s.store.iqd)
                  ∧ (c.state = .opened → t.coil.openCoil.cutLag = taken - q.coilTarget
                      ∧ t.coil.openCoil.state = (if 16 ≤ s.coil.queue.length then .cutWaitRoom
                          else if s.iqdHeld < 4 then .cutting else .cutWaitSend)
                      ∧ (s.coil.queue.length < 16 → t.mode = .threading ∧ t.faults = s.faults
                          ∧ t.store.iqu = replied
                          ∧ t.store.iqd = s.store.iqd ++ (if s.iqdHeld < 4 then [cutreq] else []))
                      ∧ (16 ≤ s.coil.queue.length → t.mode = full.mode ∧ t.faults = full.faults
                          ∧ t.store.latchPending = full.store.latchPending ∧ t.store.iqd = s.store.iqd
                          ∧ t.store.iqu = full.store.iqu ++
                              [{ frame := { dst := src, src := s.ownAddress, kind := 17, payload := [0] }, mark := .plain }]
                          ∧ t.faults.counters = s.faults.counters.modify 13 (fun n => min (n + 1) 65535))))))

/-- R6, R7: what the examination of a product answers: the product row, the lay rows, and for TWINE-NET the walk of the
mesh pattern, stated along a path of distinct steps, with the band after the last of a step's tapers (log 28). R110,
R111: SET_PRODUCT by mode, slot, open coil and examination; accepted, it makes a product start. A cut lead that
leaves COIL nothing to count requests the cut of the empty open coil within the request (R26, R92, R94). The heads and the
pattern cursor are those of R55 and R63. -/
def Obligations.ProductSet : Prop :=
  (∀ (t : Tables) (i : Slot),
    let p := t.product i
    let good := p.valid = true ∧ p.gradeB < p.gradeC ∧ p.gradeC < p.rejectAt
    let inUse (u : HeadUnit) : Prop := (t.layRow i u).inUse = true
    let mapped (u : HeadUnit) : Prop := ∃ a, (t.station a).role = .head ∧ (t.station a).unit = u
    let stepGood (j : StepIndex) : Prop :=
      let m := t.meshRow j
      let tapers := m.rows / m.taperEvery
      m.valid = true ∧ m.first ≤ m.last ∧ 0 ≤ m.first - tapers * m.widenLeft ∧ m.last + tapers * m.widenRight ≤ 511
        ∧ m.first - tapers * m.widenLeft ≤ m.last + tapers * m.widenRight
    let walk (n : Nat) (path : Nat → StepIndex) : Prop :=
      path 0 = p.startStep ∧ (∀ k, k < n → (t.meshRow (path k)).next = some (path (k + 1)))
        ∧ (∀ j k, j < k → k ≤ n → path j ≠ path k)
    (¬good → examineProduct t i = some (4, i.val))
    ∧ (∀ u, good → inUse u → ¬mapped u → (∀ v, v < u → inUse v → mapped v) →
        examineProduct t i = some (5, i.val * 24 + u.val))
    ∧ (good → (∀ u, ¬inUse u) → examineProduct t i = some (5, i.val * 24))
    ∧ (good → (∃ u, inUse u) → (∀ u, inUse u → mapped u) →
        (p.kind = .rope → examineProduct t i = none)
        ∧ (∀ n path, p.kind = .twineNet → walk n path → (∀ k, k < n → stepGood (path k)) → ¬stepGood (path n) →
            examineProduct t i = some (6, (path n).val))
        ∧ (∀ n path, p.kind = .twineNet → walk n path → (∀ k, k ≤ n → stepGood (path k)) →
            (t.meshRow (path n)).next = none ∨ (∃ k, k ≤ n ∧ (t.meshRow (path n)).next = some (path k)) →
            examineProduct t i = none)))
  ∧ ∀ (src : Addr) (slot : Byte) (s : State), s.TakesRequests →
    let set := exec (.setProduct src slot) s
    (s.mode ≠ .parked → set = .next (s.answered src [4]))
    ∧ (s.mode = .parked → 7 < slot.toNat → set = .next (s.answered src [2]))
    ∧ (s.mode = .parked → slot.toNat ≤ 7 → (s.coil.openCoil.state ≠ .opened ∨ 0 < s.coil.openCoil.length) →
        set = .next (s.answered src [5]))
    ∧ (∀ i : Slot, i.val = slot.toNat → s.mode = .parked → s.coil.openCoil.state = .opened →
        s.coil.openCoil.length = 0 →
        (∀ table row, examineProduct s.tables i = some (table, row) →
          set = .next (s.answered src ([7] ++ enc1 table ++ enc2 row)))
        ∧ (examineProduct s.tables i = none →
          let loaded (p : ProductRow) : Mesh := match p.kind with
            | .twineNet =>
              let step := s.tables.meshRow p.startStep
              { active := true, misses := [], counts := s.mesh.counts
                cursor := { stepIndex := p.startStep, rowsDone := 0, held := false, bandFirst := step.first
                            bandLast := step.last, taperCount := 0, phase := 0, expected := none, pitchRef := none } }
            | .rope =>
              { active := false, misses := [], counts := s.mesh.counts
                cursor := { stepIndex := 0, rowsDone := 0, held := false, bandFirst := 0, bandLast := 0, taperCount := 0
                            phase := 0, expected := none, pitchRef := none } }
          let started (h : HeadRecord) (inUse : Bool) : HeadRecord :=
            if h.state = .broken then { h with windowSum := 0, reports := 0, driftWindows := 0 }
            else { h with
              state := if inUse then .settling else .unused, windowSum := 0, reports := 0, lowRun := 0, driftWindows := 0 }
          let p := s.tables.product i
          let left := p.coilTarget - p.cutLead
          let lag := p.cutLead - p.coilTarget
          let cutreq : InjFrame := { frame := { dst := s.tables.addressOf .cutter 127, src := s.ownAddress, kind := 9,
                                                payload := enc2 s.coil.openCoil.number }, mark := .plain }
          let reply : InjFrame :=
            { frame := { dst := src, src := s.ownAddress, kind := 17, payload := [0] }, mark := .plain }
          let full := raise .queueFull (some s.coil.openCoil.number) 1 0 { s with store.reserved := true }
          ∃ t, set = .next t ∧ t.mode = .parked ∧ t.coil.current = i ∧ t.coil.next = s.coil.next
            ∧ t.coil.queue = s.coil.queue ∧ t.tally.loaded = true
            ∧ t.tally.mark = (if p.markInterval = 0 then { s.tally.mark with running := false } else
                { s.tally.mark with running := true, current := p.markInterval, preset := p.markInterval })
            ∧ t.tally.window = { s.tally.window with running := true, current := p.layWindow, preset := p.layWindow }
            ∧ t.tally.windowLength = 0
            ∧ t.mesh = loaded p ∧ (∀ u, t.head u = started (s.head u) (s.tables.layRow i u).inUse)
            ∧ (p.cutLead < p.coilTarget →
                t.tally.coil = { running := true, current := left, preset := left, excess := 0 }
                ∧ t.coil.openCoil = { s.coil.openCoil with
                    productId := p.productId, net := decide (p.kind = .twineNet) }
                ∧ t.store.iqu = s.store.iqu ++ [reply] ∧ t.store.iqd = s.store.iqd ∧ t.faults = s.faults)
            ∧ (p.coilTarget ≤ p.cutLead →
                t.tally.coil = { running := false, current := 0, preset := 0, excess := lag }
                ∧ t.coil.openCoil = { s.coil.openCoil with
                    productId := p.productId, net := decide (p.kind = .twineNet), cutLag := lag
                    state := if 16 ≤ s.coil.queue.length then .cutWaitRoom
                      else if s.iqdHeld < 4 then .cutting else .cutWaitSend }
                ∧ t.store.iqu.getLast? = some reply
                ∧ (s.coil.queue.length < 16 → t.store.iqu = s.store.iqu ++ [reply] ∧ t.faults = s.faults
                    ∧ t.store.iqd = s.store.iqd ++ (if s.iqdHeld < 4 then [cutreq] else []))
                ∧ (16 ≤ s.coil.queue.length → t.store.iqd = s.store.iqd
                    ∧ t.faults = full.faults ∧ t.store.latchPending = full.store.latchPending
                    ∧ t.store.iqu = full.store.iqu ++ [reply]
                    ∧ t.faults.counters = s.faults.counters.modify 13 (fun n => min (n + 1) 65535)))))

/-- R113: SET_NEXT by mode, slot and examination. -/
def Obligations.NextProductSet : Prop :=
  ∀ (src : Addr) (slot : Byte) (s : State), s.TakesRequests →
    let set := exec (.setNext src slot) s
    (s.mode = .parked → set = .next (s.answered src [4]))
    ∧ (s.mode ≠ .parked → slot = 255 → set = .next (State.answered { s with coil.next := none } src [0]))
    ∧ (s.mode ≠ .parked → 7 < slot.toNat → slot ≠ 255 → set = .next (s.answered src [2]))
    ∧ (∀ i : Slot, i.val = slot.toNat → s.mode ≠ .parked →
        (∀ table row, examineProduct s.tables i = some (table, row) →
          set = .next (s.answered src ([7] ++ enc1 table ++ enc2 row)))
        ∧ (examineProduct s.tables i = none → set = .next (State.answered { s with coil.next := some i } src [0])))

/-- R15: RELEASE by mode, fault list and latch; accepted, it frees the BROKEN heads. Of the mesh monitor the
expected row and the pitch reference alone change, on a TWINE-NET product (R63). -/
def Obligations.LineReleased : Prop :=
  ∀ (src : Addr) (s : State), s.TakesRequests →
    let halts := ∃ r ∈ s.faults.list, r.classTaken = .halt
    let latched := s.store.latchPending = some .halt ∨ s.store.latchInFlight = some .halt
    (s.mode ≠ .halted → exec (.release src) s = .next (s.answered src [4]))
    ∧ (s.mode = .halted → halts → exec (.release src) s = .next (s.answered src [6, 1]))
    ∧ (s.mode = .halted → ¬halts → latched → exec (.release src) s = .next (s.answered src [6, 2]))
    ∧ (s.mode = .halted → ¬halts → ¬latched → ∃ t, exec (.release src) s = .next t
        ∧ t.mode = .threading ∧ t.tally = s.tally ∧ t.coil = s.coil ∧ t.faults = s.faults
        ∧ (∀ u, ((s.head u).state ≠ .broken → t.head u = s.head u)
            ∧ ((s.head u).state = .broken → t.head u = { s.head u with
                state := if (s.layRow u).inUse then .settling else .unused, windowSum := 0, reports := 0, lowRun := 0 }))
        ∧ (s.product.kind = .twineNet →
            t.mesh = { s.mesh with cursor.expected := none, cursor.pitchRef := none })
        ∧ (s.product.kind = .rope → t.mesh = s.mesh)
        ∧ t.store = (s.answered src [0]).store)

/-- R93, R94: a manual CUT of an OPEN coil with length in it; BUSY otherwise. CUT as a command of its own, its MREQ
counted, is the model's choice (log 4). -/
def Obligations.CutByHand : Prop :=
  ∀ (src : Addr) (s : State), s.TakesRequests →
    let stopped : State := { s with tally.coil.running := false, coil.openCoil.cutLag := 0 }
    (s.coil.openCoil.state ≠ .opened ∨ s.coil.openCoil.length = 0 → exec (.cut src) s = .next (s.answered src [5]))
    ∧ (s.coil.openCoil.state = .opened → 0 < s.coil.openCoil.length → s.coil.queue.length < 16 → s.iqdHeld < 4 →
        exec (.cut src) s = .next (State.answered { stopped.queueIqd
            { dst := s.tables.addressOf .cutter 127, src := s.ownAddress, kind := 9,
              payload := enc2 s.coil.openCoil.number } with coil.openCoil.state := .cutting } src [0]))
    ∧ (s.coil.openCoil.state = .opened → 0 < s.coil.openCoil.length → s.coil.queue.length < 16 → 4 ≤ s.iqdHeld →
        exec (.cut src) s = .next (State.answered { stopped with coil.openCoil.state := .cutWaitSend } src [0]))
    ∧ (s.coil.openCoil.state = .opened → 0 < s.coil.openCoil.length → 16 ≤ s.coil.queue.length →
        ∃ t, exec (.cut src) s = .next t ∧ t.coil.openCoil.state = .cutWaitRoom ∧ t.coil.openCoil.cutLag = 0
          ∧ t.tally.coil = { s.tally.coil with running := false }
          ∧ t.store.iqu.getLast? = some
              { frame := { dst := src, src := s.ownAddress, kind := 17, payload := [0] }, mark := .plain }
          ∧ t.faults.counters = s.faults.counters.modify 13 (fun n => min (n + 1) 65535)
          ∧ (let full := raise .queueFull (some s.coil.openCoil.number) 1 0 { stopped with store.reserved := true }
            t.mode = full.mode ∧ t.faults = full.faults ∧ t.store.latchPending = full.store.latchPending
            ∧ t.store.iqd = s.store.iqd ∧ t.store.iqu = full.store.iqu ++
                [{ frame := { dst := src, src := s.ownAddress, kind := 17, payload := [0] }, mark := .plain }]))

/-- R200, R201: SET_ADDRESS is examined at its taking and takes effect at its reply's departure, and a request held till
then is answered from the new address. BUSY for the own address
where its own row is in use is the model's choice (log 34). -/
def Obligations.AddressSet : Prop :=
  (∀ (src : Addr) (address : Byte) (s : State), s.TakesRequests →
    let set := exec (.setAddress src address) s
    (s.mode ≠ .parked → set = .next (s.answered src [4]))
    ∧ (s.mode = .parked → address = 0 ∨ 127 < address.toNat → set = .next (s.answered src [3]))
    ∧ (s.mode = .parked → address = 127 → set = .next (s.answered src [5]))
    ∧ (s.mode = .parked → address ≠ 0 → address.toNat < 127 → (s.tables.station address.toNat).role ≠ .unused →
        set = .next (s.answered src [5]))
    ∧ (s.mode = .parked → address ≠ 0 → address.toNat < 127 → (s.tables.station address.toNat).role = .unused →
        set = .next ((s.frameConsumed .u).queueIqu { dst := src, src := s.ownAddress, kind := 17, payload := [0] }
          (.newAddress (address.setWidth 7)))))
  ∧ (∀ (f : Frame) (parity : Bool) (a : Addr) (s : State), s.resetIn = false →
      s.portU.transmitter = some { frame := f, origin := .injected (.newAddress a), parity := parity, released := false } →
      (s.store.hold = none → (∀ r ∈ s.faults.list, r.notified = true ∨ r.queued = true) →
        exec (.departure .u) s = .next { s with
          ownAddress := a
          portU := { s.portU with transmitter := none
                                  counters.framesSent := bump s.portU.counters.framesSent } })
      ∧ ∃ t, exec (.departure .u) s = .next t ∧ t.ownAddress = a
        ∧ ∀ q, s.store.hold = some q → ∃ e ∈ t.store.iqu, e.frame.dst = q.src ∧ e.frame.src = a ∧ e.frame.kind = 17)

/-- R202, R36, R107: a RESET request is taken in PARKED alone and takes effect at its reply's departure: the
tables, the address, the totals, the coils and the product selections are kept, the rest is as after a reset, the
counters of the tally at 0 as in R36 (log 35). -/
def Obligations.ResetRequested : Prop :=
  (∀ (src : Addr) (s : State), s.TakesRequests →
    (s.mode ≠ .parked → exec (.reset src) s = .next (s.answered src [4]))
    ∧ (s.mode = .parked → exec (.reset src) s =
        .next ((s.frameConsumed .u).queueIqu { dst := src, src := s.ownAddress, kind := 17, payload := [0] } .resetReply)))
  ∧ (∀ (f : Frame) (parity : Bool) (s : State), s.resetIn = false →
      s.portU.transmitter = some { frame := f, origin := .injected .resetReply, parity := parity, released := false } →
      exec (.departure .u) s = .next { State.reset with
        ownAddress := s.ownAddress
        tables := s.tables
        tally := { State.reset.tally with haulTotal := s.tally.haulTotal, packedTotal := s.tally.packedTotal }
        coil := { State.reset.coil with
          openCoil := { s.coil.openCoil with state := .opened }
          queue := s.coil.queue, counter := s.coil.counter, current := s.coil.current, next := s.coil.next }
        portU := PortState.cleared s.portU.holdIn, portD := PortState.cleared s.portD.holdIn
        resetIn := s.resetIn, freeDraws := s.freeDraws, pending := s.pending })

/-! ## Transmitters -/

/-- R149, R164 to R167, R189: a transmit start offers the pending speed command, then IQD, then FQD on Port D, and
IQU, then FQU on Port U. A GO at the front of FQD in HALTED is withdrawn and counted, its slot released, and the start
goes on with the state so left. With nothing to send nothing changes. -/
def Obligations.TransmitStarted : Prop :=
  ∀ s : State, s.resetIn = false →
    let sendD (f : Frame) (o : Origin) (x : State) : State :=
      { x with portD.transmitter := some { frame := f, origin := o, parity := s.tables.line.parityD, released := false } }
    let sendU (f : Frame) (o : Origin) (x : State) : State :=
      { x with portU.transmitter := some { frame := f, origin := o, parity := s.tables.line.parityU, released := false } }
    (s.portD.transmitter = none → s.portD.holdIn = false →
      (∀ c, s.store.latchPending = some c → exec (.transmitStart .d) s =
        .next (sendD { dst := 127, src := s.ownAddress,
                       kind := (match c with | .go => 8 | .creep => 7 | .halt => 6), payload := [] } .latch
          { s with store.latchInFlight := some c, store.latchPending := none }))
      ∧ (∀ e rest, s.store.latchPending = none → s.store.iqd = e :: rest → exec (.transmitStart .d) s =
          .next (sendD e.frame (.injected e.mark) { s with store.iqd := rest }))
      ∧ (∀ e rest, s.store.latchPending = none → s.store.iqd = [] → s.store.fqd = e :: rest → e.frame.kind ≠ 5 →
          (s.mode ≠ .halted ∨ e.frame.kind ≠ 8) → exec (.transmitStart .d) s =
          .next (sendD e.frame .forwarded { s with store.fqd := rest }))
      ∧ (∀ e, s.store.latchPending = none → s.store.iqd = [] → s.store.fqd = [e] → s.mode = .halted →
          e.frame.kind = 8 → exec (.transmitStart .d) s =
          .next (State.setHoldOut (State.countClassifier { s with store.fqd := [] }
            (fun c => { c with haltedGos := bump c.haltedGos }))))
      ∧ (∀ e rest, s.store.latchPending = none → s.store.iqd = [] → s.store.fqd = e :: rest → s.mode = .halted →
          e.frame.kind = 8 → exec (.transmitStart .d) s =
          exec (.transmitStart .d) (State.setHoldOut (State.countClassifier { s with store.fqd := rest }
            (fun c => { c with haltedGos := bump c.haltedGos }))))
      ∧ (s.store.latchPending = none → s.store.iqd = [] → s.store.fqd = [] → exec (.transmitStart .d) s = .next s))
    ∧ (s.portU.transmitter = none → s.portU.holdIn = false →
      (∀ e rest, s.store.iqu = e :: rest → exec (.transmitStart .u) s =
          .next (sendU e.frame (.injected e.mark) { s with store.iqu := rest }))
      ∧ (∀ e rest, s.store.iqu = [] → s.store.fqu = e :: rest → exec (.transmitStart .u) s =
          .next (sendU e.frame .forwarded { s with store.fqu := rest }))
      ∧ (s.store.iqu = [] → s.store.fqu = [] → exec (.transmitStart .u) s = .next s))

/-- R187, R188: the setpoint a SETPT leaves Port D with, by mode, action and destination role, and the count of a
change. -/
def Obligations.SetpointLimited : Prop :=
  ∀ (s : State) (e : FwdFrame) (rest : List FwdFrame), s.resetIn = false → s.portD.transmitter = none →
    s.portD.holdIn = false → s.store.latchPending = none → s.store.iqd = [] → s.store.fqd = e :: rest →
    e.frame.kind = 5 →
    let v := numberAt e.frame.payload 1 2
    let slow := s.mode = .threading ∨ s.mode = .creep
    let send (f : Frame) (x : State) : State := { x with
      store.fqd := rest
      portD.transmitter := some { frame := f, origin := .forwarded, parity := s.tables.line.parityD, released := false } }
    let changed (w : Nat) : Frame := { e.frame with payload := enc2 w ++ e.frame.payload.drop 2 }
    let clampedTo (limit : Nat) : Prop :=
      (v ≤ limit → exec (.transmitStart .d) s = .next (send e.frame s))
      ∧ (limit < v → exec (.transmitStart .d) s = .next (send (changed limit)
          (s.countClassifier (fun c => { c with clampedSetpoints := bump c.clampedSetpoints }))))
    (s.mode = .halted → v ≠ 0 → exec (.transmitStart .d) s = .next (send (changed 0)
      (s.countClassifier (fun c => { c with zeroedSetpoints := bump c.zeroedSetpoints }))))
    ∧ (s.mode = .halted → v = 0 → exec (.transmitStart .d) s = .next (send e.frame s))
    ∧ (s.mode ≠ .halted → (e.action ≠ .clamp ∨ s.mode = .parked ∨ (e.destRole ≠ some .head ∧ e.destRole ≠ some .hauloff)) →
        exec (.transmitStart .d) s = .next (send e.frame s))
    ∧ (e.action = .clamp → e.destRole = some .head → slow → clampedTo s.tables.line.creepHead)
    ∧ (e.action = .clamp → e.destRole = some .hauloff → slow → clampedTo s.tables.line.creepHaul)
    ∧ (e.action = .clamp → e.destRole = some .head → s.mode = .run → clampedTo s.product.maxHeadSpeed)
    ∧ (e.action = .clamp → e.destRole = some .hauloff → s.mode = .run → clampedTo s.product.maxHaulSpeed)

/-- R150, R168, R169, R33, R96, R103, R129: a departure counts the frame sent, releases what the frame held, is reported on,
and empties the holding stage. The entry an IQD departure frees goes to the CUTREQ of a coil in CUT_WAIT_SEND, and room
left after that to a pending TAKE. -/
def Obligations.FrameDeparts : Prop :=
  ∀ (f : Frame) (o : Origin) (parity : Bool) (s : State), s.resetIn = false →
    let holding : Holding := { frame := f, origin := o, parity := parity, released := false }
    let sentD : State := { s with portD := { s.portD with
      transmitter := none, counters.framesSent := bump s.portD.counters.framesSent } }
    let sentU : State := { s with portU := { s.portU with
      transmitter := none, counters.framesSent := bump s.portU.counters.framesSent } }
    let starts := f.kind = 9 ∧ 2 ≤ f.payload.length ∧ numberAt f.payload 1 2 = s.coil.openCoil.number
      ∧ s.coil.openCoil.state = .cutting
    let watch : OneShot :=
      { running := true, current := s.tables.line.cutWait, preset := s.tables.line.cutWait, excess := 0 }
    (∀ p, (s.port p).transmitter = none → exec (.departure p) s = .next s)
    ∧ (s.portD.transmitter = some holding → o = .forwarded →
        (starts → exec (.departure .d) s = .next { sentD.setHoldOut with tally.cutwait := watch })
        ∧ (¬starts → exec (.departure .d) s = .next sentD.setHoldOut))
    ∧ (s.portU.transmitter = some holding → o = .forwarded → exec (.departure .u) s = .next sentU.setHoldOut)
    ∧ (s.portD.transmitter = some holding → o = .latch → exec (.departure .d) s =
        .next { sentD with store.latchInFlight := none })
    ∧ (s.portD.transmitter = some holding → o = .injected .plain → s.coil.pendingTake = false →
        s.coil.openCoil.state ≠ .cutWaitSend →
        (starts → exec (.departure .d) s = .next { sentD with tally.cutwait := watch })
        ∧ (¬starts → exec (.departure .d) s = .next sentD))
    ∧ (s.portD.transmitter = some holding → o = .injected .plain → s.iqdHeld ≤ 4 →
        let cut : State := { sentD.queueIqd { dst := s.tables.addressOf .cutter 127, src := s.ownAddress, kind := 9,
                                              payload := enc2 s.coil.openCoil.number } with
          coil.openCoil.state := .cutting }
        let base : State := if starts then { sentD with tally.cutwait := watch } else sentD
        let taken (x : State) : Host.Outcome State Fault Refusal :=
          exec (.take []) { x with coil.pendingTake := false }
        (s.coil.openCoil.state = .cutWaitSend → s.coil.pendingTake = false → exec (.departure .d) s = .next cut)
        ∧ (s.coil.openCoil.state = .cutWaitSend → s.coil.pendingTake = true → s.iqdHeld = 4 →
            exec (.departure .d) s = .next cut)
        ∧ (s.coil.openCoil.state = .cutWaitSend → s.coil.pendingTake = true → s.iqdHeld < 4 →
            exec (.departure .d) s = taken cut)
        ∧ (s.coil.openCoil.state ≠ .cutWaitSend → s.coil.pendingTake = true → exec (.departure .d) s = taken base))
    ∧ (∀ i, s.portU.transmitter = some holding → o = .injected (.alarm i) → s.store.hold = none →
        (∀ r ∈ s.faults.list, r.identity = i ∨ r.notified = true ∨ r.queued = true) →
        exec (.departure .u) s = .next { sentU with
          faults.list := s.faults.list.map
            (fun r => if r.identity = i then { r with queued := false, notified := true } else r) })

/-- R128 to R130, R150, R169, R172, R201: the departure of an IQU frame but the reply of a RESET request. Its mark is
reported first: the own address changes, or the record of the ALARM is notified. Then the held request is taken, under
the address now in force, carried out and answered in the entry set free. Then the records neither queued nor notified
have their ALARMs queued, oldest first, while an entry is free. At the taking the departing frame has been counted as
sent and its entry released (log 23). -/
def Obligations.DepartureServesWaiting : Prop :=
  ∀ (f : Frame) (m : InjMark) (parity : Bool) (s : State), s.resetIn = false → m ≠ .resetReply →
    s.store.reserved = false → s.iquHeld ≤ 4 →
    s.portU.transmitter = some { frame := f, origin := .injected m, parity := parity, released := false } →
    let own := match m with
      | .newAddress a => a
      | .plain | .alarm _ | .resetReply => s.ownAddress
    let records := match m with
      | .alarm i => s.faults.list.map
          (fun r => if r.identity = i then { r with queued := false, notified := true } else r)
      | .plain | .newAddress _ | .resetReply => s.faults.list
    let sent : PortState := { s.portU with
      transmitter := none, counters.framesSent := bump s.portU.counters.framesSent }
    let taking : State := { s with
      ownAddress := own, faults.list := records
      portU := { sent with
        transmitter := some { frame := f, origin := .injected m, parity := parity, released := true } }
      store.reserved := true }
    let reply (q : Frame) (payload : List Byte) (mark : InjMark) : InjFrame :=
      { frame := { dst := q.src, src := own, kind := 17, payload := payload }, mark := mark }
    let alarm (r : FaultRecord) : InjFrame :=
      { frame := { dst := s.tables.addressOf .master 0, src := own, kind := 15,
                   payload := enc1 r.kind.number ++ enc2 (r.source.getD 65535) ++ enc1 r.classTaken.code
                     ++ enc4 r.first },
        mark := .alarm r.identity }
    let waiting := records.filter (fun r => !r.notified && !r.queued)
    ∃ t, exec (.departure .u) s = .next t
      ∧ t.portU.transmitter = none ∧ t.store.hold = none ∧ t.store.fqd = s.store.fqd ∧ t.store.fqu = s.store.fqu
      ∧ (∀ q, s.store.hold = some q → parseRequest q.payload = none → s.iquHeld = 4 ∨ waiting = [] →
          t.store.iqu = s.store.iqu ++ [reply q [1] .plain]
          ∧ t.portU = sent ∧ t.ownAddress = own ∧ t.coil = s.coil ∧ t.tables = s.tables
          ∧ t.faults = { s.faults with list := records })
      ∧ (∀ q r, s.store.hold = some q → s.iquHeld = 4 ∨ waiting = [] → parseRequest q.payload = some r →
          r.availableIn s.mode = false →
          t.store.iqu = s.store.iqu ++ [reply q [4] .plain]
          ∧ t.portU = sent ∧ t.ownAddress = own ∧ t.coil = s.coil ∧ t.tables = s.tables
          ∧ t.faults = { s.faults with list := records })
      ∧ (∀ q r, s.store.hold = some q → s.iquHeld = 4 → parseRequest q.payload = some r → r.availableIn s.mode = true →
          let done := carryOut r taking
          t.store.iqu = done.1.store.iqu ++ [reply q (done.2.status :: done.2.data) done.2.mark]
          ∧ t.ownAddress = own
          ∧ t.mode = done.1.mode ∧ t.tables = done.1.tables ∧ t.tally = done.1.tally ∧ t.lay = done.1.lay
          ∧ t.mesh = done.1.mesh ∧ t.coil = done.1.coil ∧ t.faults = done.1.faults ∧ t.portD = done.1.portD
          ∧ t.portU.counters = done.1.portU.counters)
      ∧ (s.store.hold = none → waiting = [] →
          t = { s with ownAddress := own, faults.list := records, portU := sent })
      ∧ (∀ before r after, s.store.hold = none → (s.faults.list.map FaultRecord.identity).Nodup → s.iquHeld = 4 → records = before ++ r :: after →
          (∀ x ∈ before, x.notified = true ∨ x.queued = true) → r.notified = false → r.queued = false →
          t = { s with
            ownAddress := own, faults.list := before ++ { r with queued := true } :: after, portU := sent
            store.iqu := s.store.iqu ++ [alarm r] })
      ∧ (s.store.hold = none → (s.faults.list.map FaultRecord.identity).Nodup →
          let served := waiting.take (5 - s.iquHeld)
          t = { s with
            ownAddress := own, portU := sent
            faults.list := records.map (fun r => if r ∈ served then { r with queued := true } else r)
            store.iqu := s.store.iqu ++ served.map alarm })

/-! ## Invariants -/

/-- Every invariant below holds at reset. -/
def Obligations.InvariantsHoldAtReset : Prop :=
  State.reset.StoreBounded ∧ State.reset.HoldOutFollows ∧ State.reset.HaulBalanced ∧ State.reset.CoilsOrdered
    ∧ State.reset.BreakHalts ∧ State.reset.ModeAgrees ∧ State.reset.FaultsListed ∧ State.reset.MeshSound

/-- R157, R159, R160, R163, R170: the frame store stays within its numbers, and a request is held only while all
four IQU entries are. -/
def Obligations.StoreStaysBounded : Prop :=
  ∀ s t : State, s.StoreBounded → step s = .next t → t.StoreBounded

/-- R152: between events HOLD-OUT is asserted exactly while the free forwarding slots are at or below the hold
threshold. -/
def Obligations.HoldOutKeepsFollowing : Prop :=
  ∀ s t : State, s.HoldOutFollows → step s = .next t → t.HoldOutFollows

/-- R19, R86: the haul total stays the packed total and the lengths of all coils. -/
def Obligations.HaulStaysBalanced : Prop :=
  ∀ s t : State, s.HaulBalanced → step s = .next t → t.HaulBalanced

/-- R84, R85, R95, R100: the coil queue and the open coil stay in order. -/
def Obligations.CoilsStayOrdered : Prop :=
  ∀ s t : State, s.CoilsOrdered → step s = .next t → t.CoilsOrdered

/-- R39, R123: a head is BROKEN only in HALTED or PARKED, and at most one is. -/
def Obligations.BreaksKeepTheLineHalted : Prop :=
  ∀ s t : State, s.BreakHalts → step s = .next t → t.BreakHalts

/-- R32, R165: HAULWATCH runs only in RUN and CREEP, and no GO is pending in HALTED. -/
def Obligations.ModeStaysAgreed : Prop :=
  ∀ s t : State, s.ModeAgrees → step s = .next t → t.ModeAgrees

/-- R125, R126, R129: the fault list stays a list of at most 16 records, one for a kind and source, each queued
exactly while its ALARM is on its way. -/
def Obligations.FaultListStaysSound : Prop :=
  ∀ s t : State, s.StoreBounded → s.FaultsListed → step s = .next t → t.FaultsListed

/-- R60, R62, R70, R74, R195: the loaded tables stay in range and the mesh monitor sound. -/
def Obligations.MeshStaysSound : Prop :=
  ∀ s t : State, s.MeshSound → step s = .next t → t.MeshSound
end

