-- ==== Sys2Proof/Laws/State.lean ====
section
/-! SUPPORT. What each named update of the state leaves unchanged, a simp lemma for every field, and the
rewriting of the fields it sets. -/

namespace Sys2Proof.Machine

/-- `setPort` changes nothing outside the ports. -/
@[simp] theorem State.setPort_keeps (s : State) (p : Port) (x : PortState) :
    (s.setPort p x).mode = s.mode ∧ (s.setPort p x).ownAddress = s.ownAddress ∧
    (s.setPort p x).tables = s.tables ∧ (s.setPort p x).tally = s.tally ∧ (s.setPort p x).lay = s.lay ∧
    (s.setPort p x).mesh = s.mesh ∧ (s.setPort p x).coil = s.coil ∧ (s.setPort p x).faults = s.faults ∧
    (s.setPort p x).store = s.store ∧ (s.setPort p x).holdOut = s.holdOut ∧
    (s.setPort p x).classifier = s.classifier ∧ (s.setPort p x).resetIn = s.resetIn ∧
    (s.setPort p x).freeDraws = s.freeDraws ∧ (s.setPort p x).pending = s.pending := by
  cases p <;> (repeat' apply And.intro) <;> rfl

/-- `setReceiver` changes nothing outside the ports. -/
@[simp] theorem State.setReceiver_keeps (s : State) (p : Port) (r : Receiver) :
    (s.setReceiver p r).mode = s.mode ∧ (s.setReceiver p r).ownAddress = s.ownAddress ∧
    (s.setReceiver p r).tables = s.tables ∧ (s.setReceiver p r).tally = s.tally ∧
    (s.setReceiver p r).lay = s.lay ∧ (s.setReceiver p r).mesh = s.mesh ∧ (s.setReceiver p r).coil = s.coil ∧
    (s.setReceiver p r).faults = s.faults ∧ (s.setReceiver p r).store = s.store ∧
    (s.setReceiver p r).holdOut = s.holdOut ∧ (s.setReceiver p r).classifier = s.classifier ∧
    (s.setReceiver p r).resetIn = s.resetIn ∧ (s.setReceiver p r).freeDraws = s.freeDraws ∧
    (s.setReceiver p r).pending = s.pending := by
  cases p <;> (repeat' apply And.intro) <;> rfl

/-- `setTransmitter` changes nothing outside the ports. -/
@[simp] theorem State.setTransmitter_keeps (s : State) (p : Port) (h : Option Holding) :
    (s.setTransmitter p h).mode = s.mode ∧ (s.setTransmitter p h).ownAddress = s.ownAddress ∧
    (s.setTransmitter p h).tables = s.tables ∧ (s.setTransmitter p h).tally = s.tally ∧
    (s.setTransmitter p h).lay = s.lay ∧ (s.setTransmitter p h).mesh = s.mesh ∧
    (s.setTransmitter p h).coil = s.coil ∧ (s.setTransmitter p h).faults = s.faults ∧
    (s.setTransmitter p h).store = s.store ∧ (s.setTransmitter p h).holdOut = s.holdOut ∧
    (s.setTransmitter p h).classifier = s.classifier ∧ (s.setTransmitter p h).resetIn = s.resetIn ∧
    (s.setTransmitter p h).freeDraws = s.freeDraws ∧ (s.setTransmitter p h).pending = s.pending := by
  cases p <;> (repeat' apply And.intro) <;> rfl

/-- `countPort` changes nothing outside the ports. -/
@[simp] theorem State.countPort_keeps (s : State) (p : Port) (f : PortCounters → PortCounters) :
    (s.countPort p f).mode = s.mode ∧ (s.countPort p f).ownAddress = s.ownAddress ∧
    (s.countPort p f).tables = s.tables ∧ (s.countPort p f).tally = s.tally ∧ (s.countPort p f).lay = s.lay ∧
    (s.countPort p f).mesh = s.mesh ∧ (s.countPort p f).coil = s.coil ∧ (s.countPort p f).faults = s.faults ∧
    (s.countPort p f).store = s.store ∧ (s.countPort p f).holdOut = s.holdOut ∧
    (s.countPort p f).classifier = s.classifier ∧ (s.countPort p f).resetIn = s.resetIn ∧
    (s.countPort p f).freeDraws = s.freeDraws ∧ (s.countPort p f).pending = s.pending := by
  cases p <;> (repeat' apply And.intro) <;> rfl

/-- `setHoldOut` changes the HOLD-OUT level alone. -/
@[simp] theorem State.setHoldOut_keeps (s : State) :
    (s.setHoldOut).mode = s.mode ∧ (s.setHoldOut).ownAddress = s.ownAddress ∧ (s.setHoldOut).tables = s.tables ∧
    (s.setHoldOut).tally = s.tally ∧ (s.setHoldOut).lay = s.lay ∧ (s.setHoldOut).mesh = s.mesh ∧
    (s.setHoldOut).coil = s.coil ∧ (s.setHoldOut).faults = s.faults ∧ (s.setHoldOut).portU = s.portU ∧
    (s.setHoldOut).portD = s.portD ∧ (s.setHoldOut).store = s.store ∧ (s.setHoldOut).classifier = s.classifier ∧
    (s.setHoldOut).resetIn = s.resetIn ∧ (s.setHoldOut).freeDraws = s.freeDraws ∧
    (s.setHoldOut).pending = s.pending := by
  repeat' apply And.intro
  all_goals rfl

/-- `queueIqd` changes IQD alone. -/
@[simp] theorem State.queueIqd_keeps (s : State) (f : Frame) :
    (s.queueIqd f).mode = s.mode ∧ (s.queueIqd f).ownAddress = s.ownAddress ∧ (s.queueIqd f).tables = s.tables ∧
    (s.queueIqd f).tally = s.tally ∧ (s.queueIqd f).lay = s.lay ∧ (s.queueIqd f).mesh = s.mesh ∧
    (s.queueIqd f).coil = s.coil ∧ (s.queueIqd f).faults = s.faults ∧ (s.queueIqd f).portU = s.portU ∧
    (s.queueIqd f).portD = s.portD ∧ (s.queueIqd f).store.fqd = s.store.fqd ∧
    (s.queueIqd f).store.fqu = s.store.fqu ∧ (s.queueIqd f).store.iqu = s.store.iqu ∧
    (s.queueIqd f).store.latchPending = s.store.latchPending ∧
    (s.queueIqd f).store.latchInFlight = s.store.latchInFlight ∧ (s.queueIqd f).store.hold = s.store.hold ∧
    (s.queueIqd f).store.arriving = s.store.arriving ∧ (s.queueIqd f).store.reserved = s.store.reserved ∧
    (s.queueIqd f).holdOut = s.holdOut ∧ (s.queueIqd f).classifier = s.classifier ∧
    (s.queueIqd f).resetIn = s.resetIn ∧ (s.queueIqd f).freeDraws = s.freeDraws ∧
    (s.queueIqd f).pending = s.pending := by
  repeat' apply And.intro
  all_goals rfl

/-- `queueIqu` changes IQU alone. -/
@[simp] theorem State.queueIqu_keeps (s : State) (f : Frame) (m : InjMark) :
    (s.queueIqu f m).mode = s.mode ∧ (s.queueIqu f m).ownAddress = s.ownAddress ∧
    (s.queueIqu f m).tables = s.tables ∧ (s.queueIqu f m).tally = s.tally ∧ (s.queueIqu f m).lay = s.lay ∧
    (s.queueIqu f m).mesh = s.mesh ∧ (s.queueIqu f m).coil = s.coil ∧ (s.queueIqu f m).faults = s.faults ∧
    (s.queueIqu f m).portU = s.portU ∧ (s.queueIqu f m).portD = s.portD ∧
    (s.queueIqu f m).store.fqd = s.store.fqd ∧ (s.queueIqu f m).store.fqu = s.store.fqu ∧
    (s.queueIqu f m).store.iqd = s.store.iqd ∧ (s.queueIqu f m).store.latchPending = s.store.latchPending ∧
    (s.queueIqu f m).store.latchInFlight = s.store.latchInFlight ∧ (s.queueIqu f m).store.hold = s.store.hold ∧
    (s.queueIqu f m).store.arriving = s.store.arriving ∧ (s.queueIqu f m).store.reserved = s.store.reserved ∧
    (s.queueIqu f m).holdOut = s.holdOut ∧ (s.queueIqu f m).classifier = s.classifier ∧
    (s.queueIqu f m).resetIn = s.resetIn ∧ (s.queueIqu f m).freeDraws = s.freeDraws ∧
    (s.queueIqu f m).pending = s.pending := by
  repeat' apply And.intro
  all_goals rfl

/-- R190. -/
@[simp] theorem State.countClassifier_keeps (s : State) (f : ClassifierCounts → ClassifierCounts) :
    (s.countClassifier f).mode = s.mode ∧ (s.countClassifier f).ownAddress = s.ownAddress ∧
    (s.countClassifier f).tables = s.tables ∧ (s.countClassifier f).tally = s.tally ∧
    (s.countClassifier f).lay = s.lay ∧ (s.countClassifier f).mesh = s.mesh ∧
    (s.countClassifier f).coil = s.coil ∧ (s.countClassifier f).faults = s.faults ∧
    (s.countClassifier f).portU = s.portU ∧ (s.countClassifier f).portD = s.portD ∧
    (s.countClassifier f).store = s.store ∧ (s.countClassifier f).holdOut = s.holdOut ∧
    (s.countClassifier f).resetIn = s.resetIn ∧ (s.countClassifier f).freeDraws = s.freeDraws ∧
    (s.countClassifier f).pending = s.pending := by
  repeat' apply And.intro
  all_goals rfl

/-- R190. -/
@[simp] theorem countConsumed_keeps (s : State) :
    (countConsumed s).mode = s.mode ∧ (countConsumed s).ownAddress = s.ownAddress ∧
    (countConsumed s).tables = s.tables ∧ (countConsumed s).tally = s.tally ∧ (countConsumed s).lay = s.lay ∧
    (countConsumed s).mesh = s.mesh ∧ (countConsumed s).coil = s.coil ∧ (countConsumed s).faults = s.faults ∧
    (countConsumed s).portU = s.portU ∧ (countConsumed s).portD = s.portD ∧ (countConsumed s).store = s.store ∧
    (countConsumed s).holdOut = s.holdOut ∧ (countConsumed s).resetIn = s.resetIn ∧
    (countConsumed s).freeDraws = s.freeDraws ∧ (countConsumed s).pending = s.pending := by
  repeat' apply And.intro
  all_goals rfl

/-- R153: counting a good frame changes the counters of its port alone. -/
@[simp] theorem State.frameCounted_keeps (s : State) (p : Port) :
    (s.frameCounted p).mode = s.mode ∧ (s.frameCounted p).ownAddress = s.ownAddress ∧
    (s.frameCounted p).tables = s.tables ∧ (s.frameCounted p).tally = s.tally ∧ (s.frameCounted p).lay = s.lay ∧
    (s.frameCounted p).mesh = s.mesh ∧ (s.frameCounted p).coil = s.coil ∧ (s.frameCounted p).faults = s.faults ∧
    (s.frameCounted p).portU.receiver = s.portU.receiver ∧
    (s.frameCounted p).portU.transmitter = s.portU.transmitter ∧
    (s.frameCounted p).portU.holdIn = s.portU.holdIn ∧ (s.frameCounted p).portD.receiver = s.portD.receiver ∧
    (s.frameCounted p).portD.transmitter = s.portD.transmitter ∧
    (s.frameCounted p).portD.holdIn = s.portD.holdIn ∧ (s.frameCounted p).store = s.store ∧
    (s.frameCounted p).holdOut = s.holdOut ∧ (s.frameCounted p).classifier = s.classifier ∧
    (s.frameCounted p).resetIn = s.resetIn ∧ (s.frameCounted p).freeDraws = s.freeDraws ∧
    (s.frameCounted p).pending = s.pending := by
  cases p <;> (repeat' apply And.intro) <;> rfl

/-- R153, R180: counting a consumed frame changes counters alone. -/
@[simp] theorem State.frameConsumed_keeps (s : State) (p : Port) :
    (s.frameConsumed p).mode = s.mode ∧ (s.frameConsumed p).ownAddress = s.ownAddress ∧
    (s.frameConsumed p).tables = s.tables ∧ (s.frameConsumed p).tally = s.tally ∧
    (s.frameConsumed p).lay = s.lay ∧ (s.frameConsumed p).mesh = s.mesh ∧ (s.frameConsumed p).coil = s.coil ∧
    (s.frameConsumed p).faults = s.faults ∧ (s.frameConsumed p).portU.receiver = s.portU.receiver ∧
    (s.frameConsumed p).portU.transmitter = s.portU.transmitter ∧
    (s.frameConsumed p).portU.holdIn = s.portU.holdIn ∧ (s.frameConsumed p).portD.receiver = s.portD.receiver ∧
    (s.frameConsumed p).portD.transmitter = s.portD.transmitter ∧
    (s.frameConsumed p).portD.holdIn = s.portD.holdIn ∧ (s.frameConsumed p).store = s.store ∧
    (s.frameConsumed p).holdOut = s.holdOut ∧ (s.frameConsumed p).resetIn = s.resetIn ∧
    (s.frameConsumed p).freeDraws = s.freeDraws ∧ (s.frameConsumed p).pending = s.pending := by
  cases p <;> (repeat' apply And.intro) <;> rfl

/-- R162: queuing toward a port changes IQU or IQD alone. -/
@[simp] theorem State.queueToward_keeps (s : State) (p : Port) (f : Frame) :
    (s.queueToward p f).mode = s.mode ∧ (s.queueToward p f).ownAddress = s.ownAddress ∧
    (s.queueToward p f).tables = s.tables ∧ (s.queueToward p f).tally = s.tally ∧
    (s.queueToward p f).lay = s.lay ∧ (s.queueToward p f).mesh = s.mesh ∧ (s.queueToward p f).coil = s.coil ∧
    (s.queueToward p f).faults = s.faults ∧ (s.queueToward p f).portU = s.portU ∧
    (s.queueToward p f).portD = s.portD ∧ (s.queueToward p f).store.fqd = s.store.fqd ∧
    (s.queueToward p f).store.fqu = s.store.fqu ∧
    (s.queueToward p f).store.latchPending = s.store.latchPending ∧
    (s.queueToward p f).store.latchInFlight = s.store.latchInFlight ∧
    (s.queueToward p f).store.hold = s.store.hold ∧ (s.queueToward p f).store.arriving = s.store.arriving ∧
    (s.queueToward p f).store.reserved = s.store.reserved ∧ (s.queueToward p f).holdOut = s.holdOut ∧
    (s.queueToward p f).classifier = s.classifier ∧ (s.queueToward p f).resetIn = s.resetIn ∧
    (s.queueToward p f).freeDraws = s.freeDraws ∧ (s.queueToward p f).pending = s.pending := by
  cases p <;> (repeat' apply And.intro) <;> rfl

/-- `setLatch` changes the pending speed command alone (R164). -/
@[simp] theorem State.setLatch_keeps (s : State) (c : SpeedCommand) :
    (s.setLatch c).mode = s.mode ∧ (s.setLatch c).ownAddress = s.ownAddress ∧ (s.setLatch c).tables = s.tables ∧
    (s.setLatch c).tally = s.tally ∧ (s.setLatch c).lay = s.lay ∧ (s.setLatch c).mesh = s.mesh ∧
    (s.setLatch c).coil = s.coil ∧ (s.setLatch c).faults = s.faults ∧ (s.setLatch c).portU = s.portU ∧
    (s.setLatch c).portD = s.portD ∧ (s.setLatch c).store.fqd = s.store.fqd ∧
    (s.setLatch c).store.fqu = s.store.fqu ∧ (s.setLatch c).store.iqd = s.store.iqd ∧
    (s.setLatch c).store.iqu = s.store.iqu ∧ (s.setLatch c).store.latchInFlight = s.store.latchInFlight ∧
    (s.setLatch c).store.hold = s.store.hold ∧ (s.setLatch c).store.arriving = s.store.arriving ∧
    (s.setLatch c).store.reserved = s.store.reserved ∧ (s.setLatch c).holdOut = s.holdOut ∧
    (s.setLatch c).classifier = s.classifier ∧ (s.setLatch c).resetIn = s.resetIn ∧
    (s.setLatch c).freeDraws = s.freeDraws ∧ (s.setLatch c).pending = s.pending := by
  unfold State.setLatch
  split <;> (repeat' apply And.intro) <;> rfl

/-- `drawn` changes the count of free values alone. -/
@[simp] theorem State.drawn_keeps (s : State) :
    (s.drawn).mode = s.mode ∧ (s.drawn).ownAddress = s.ownAddress ∧ (s.drawn).tables = s.tables ∧
    (s.drawn).tally = s.tally ∧ (s.drawn).lay = s.lay ∧ (s.drawn).mesh = s.mesh ∧ (s.drawn).coil = s.coil ∧
    (s.drawn).faults = s.faults ∧ (s.drawn).portU = s.portU ∧ (s.drawn).portD = s.portD ∧
    (s.drawn).store = s.store ∧ (s.drawn).holdOut = s.holdOut ∧ (s.drawn).classifier = s.classifier ∧
    (s.drawn).resetIn = s.resetIn ∧ (s.drawn).pending = s.pending := by
  repeat' apply And.intro
  all_goals rfl

/-! ## The fields the updates set -/

@[simp] theorem State.port_setPort (s : State) (p : Port) (x : PortState) : (s.setPort p x).port p = x := by
  cases p <;> rfl

theorem State.port_setPort_of_ne (s : State) (p q : Port) (x : PortState) (h : q ≠ p) :
    (s.setPort p x).port q = s.port q := by
  cases p <;> cases q <;> first | rfl | exact absurd rfl h

@[simp] theorem State.setPort_setPort (s : State) (p : Port) (x y : PortState) :
    (s.setPort p x).setPort p y = s.setPort p y := by
  cases p <;> rfl

@[simp] theorem State.port_setReceiver (s : State) (p : Port) (r : Receiver) :
    (s.setReceiver p r).port p = { s.port p with receiver := r } := by
  cases p <;> rfl

@[simp] theorem State.port_setTransmitter (s : State) (p : Port) (h : Option Holding) :
    (s.setTransmitter p h).port p = { s.port p with transmitter := h } := by
  cases p <;> rfl

@[simp] theorem State.port_countPort (s : State) (p : Port) (f : PortCounters → PortCounters) :
    (s.countPort p f).port p = { s.port p with counters := f (s.port p).counters } := by
  cases p <;> rfl

@[simp] theorem State.setHoldOut_holdOut (s : State) :
    s.setHoldOut.holdOut = holdOutLevel s.freeForwarding s.tables.line.holdThreshold := rfl

@[simp] theorem State.queueIqd_iqd (s : State) (f : Frame) :
    (s.queueIqd f).store.iqd = s.store.iqd ++ [{ frame := f, mark := .plain }] := rfl

@[simp] theorem State.queueIqu_iqu (s : State) (f : Frame) (m : InjMark) :
    (s.queueIqu f m).store.iqu = s.store.iqu ++ [{ frame := f, mark := m }] := rfl

@[simp] theorem State.drawn_freeDraws (s : State) : s.drawn.freeDraws = s.freeDraws + 1 := rfl

/-- R164: a pending HALT stays; any other pending command is replaced. -/
theorem State.setLatch_latchPending (s : State) (c : SpeedCommand) :
    (s.setLatch c).store.latchPending = if s.store.latchPending = some .halt then some .halt else some c := by
  unfold State.setLatch
  split <;> simp_all

/-- R16: a setting of HALT leaves HALT pending. -/
@[simp] theorem State.setLatch_halt (s : State) : (s.setLatch .halt).store.latchPending = some .halt := by
  simp [State.setLatch_latchPending]

/-! ## Slots and entries (R157, R159) -/

theorem State.freeForwarding_eq (s : State) : s.freeForwarding = 24 - s.heldForwarding := rfl

end Sys2Proof.Machine
end

