-- ==== Sys2Proof/Laws/Dispatcher.lean ====
section
/-! SUPPORT. What fault dispatch and the mode requests can change: for each operation, every field it keeps. -/

namespace Sys2Proof.Machine

/-- R87: a defect changes the open coil's defect list and points alone. -/
@[simp] theorem addDefect_keeps (o : Occurrence) (s : State) :
    (addDefect o s).mode = s.mode ∧ (addDefect o s).ownAddress = s.ownAddress ∧
    (addDefect o s).tables = s.tables ∧ (addDefect o s).tally = s.tally ∧ (addDefect o s).lay = s.lay ∧
    (addDefect o s).mesh = s.mesh ∧ (addDefect o s).coil.openCoil.number = s.coil.openCoil.number ∧
    (addDefect o s).coil.openCoil.productId = s.coil.openCoil.productId ∧
    (addDefect o s).coil.openCoil.net = s.coil.openCoil.net ∧
    (addDefect o s).coil.openCoil.state = s.coil.openCoil.state ∧
    (addDefect o s).coil.openCoil.length = s.coil.openCoil.length ∧
    (addDefect o s).coil.openCoil.start = s.coil.openCoil.start ∧
    (addDefect o s).coil.openCoil.rows = s.coil.openCoil.rows ∧
    (addDefect o s).coil.openCoil.worstDeviation = s.coil.openCoil.worstDeviation ∧
    (addDefect o s).coil.openCoil.driftWindows = s.coil.openCoil.driftWindows ∧
    (addDefect o s).coil.openCoil.grade = s.coil.openCoil.grade ∧
    (addDefect o s).coil.openCoil.cutLag = s.coil.openCoil.cutLag ∧
    (addDefect o s).coil.openCoil.overdue = s.coil.openCoil.overdue ∧
    (addDefect o s).coil.openCoil.overlengthNoted = s.coil.openCoil.overlengthNoted ∧
    (addDefect o s).coil.queue = s.coil.queue ∧ (addDefect o s).coil.counter = s.coil.counter ∧
    (addDefect o s).coil.current = s.coil.current ∧ (addDefect o s).coil.next = s.coil.next ∧
    (addDefect o s).coil.pendingTake = s.coil.pendingTake ∧
    (addDefect o s).coil.rejectedFrames = s.coil.rejectedFrames ∧
    (addDefect o s).coil.marksMissed = s.coil.marksMissed ∧
    (addDefect o s).coil.takeOverruns = s.coil.takeOverruns ∧
    (addDefect o s).coil.nacksNotSent = s.coil.nacksNotSent ∧
    (addDefect o s).coil.refusedChangeovers = s.coil.refusedChangeovers ∧ (addDefect o s).faults = s.faults ∧
    (addDefect o s).portU = s.portU ∧ (addDefect o s).portD = s.portD ∧ (addDefect o s).store = s.store ∧
    (addDefect o s).holdOut = s.holdOut ∧ (addDefect o s).classifier = s.classifier ∧
    (addDefect o s).resetIn = s.resetIn ∧ (addDefect o s).freeDraws = s.freeDraws ∧
    (addDefect o s).pending = s.pending := by
  unfold addDefect CoilRecord.addDefect
  dsimp only
  repeat' split
  all_goals (repeat' apply And.intro)
  all_goals rfl

/-- R32: stopping HAULWATCH changes its running flag alone. -/
@[simp] theorem stopHaulwatch_keeps (s : State) :
    (stopHaulwatch s).mode = s.mode ∧ (stopHaulwatch s).ownAddress = s.ownAddress ∧
    (stopHaulwatch s).tables = s.tables ∧ (stopHaulwatch s).tally.haulTotal = s.tally.haulTotal ∧
    (stopHaulwatch s).tally.packedTotal = s.tally.packedTotal ∧ (stopHaulwatch s).tally.coil = s.tally.coil ∧
    (stopHaulwatch s).tally.mark = s.tally.mark ∧ (stopHaulwatch s).tally.window = s.tally.window ∧
    (stopHaulwatch s).tally.windowLength = s.tally.windowLength ∧
    (stopHaulwatch s).tally.cutwait = s.tally.cutwait ∧ (stopHaulwatch s).tally.loaded = s.tally.loaded ∧
    (stopHaulwatch s).tally.haulTaken = s.tally.haulTaken ∧
    (stopHaulwatch s).tally.shortHaul = s.tally.shortHaul ∧
    (stopHaulwatch s).tally.clippedHaul = s.tally.clippedHaul ∧ (stopHaulwatch s).lay = s.lay ∧
    (stopHaulwatch s).mesh = s.mesh ∧ (stopHaulwatch s).coil = s.coil ∧ (stopHaulwatch s).faults = s.faults ∧
    (stopHaulwatch s).portU = s.portU ∧ (stopHaulwatch s).portD = s.portD ∧ (stopHaulwatch s).store = s.store ∧
    (stopHaulwatch s).holdOut = s.holdOut ∧ (stopHaulwatch s).classifier = s.classifier ∧
    (stopHaulwatch s).resetIn = s.resetIn ∧ (stopHaulwatch s).freeDraws = s.freeDraws ∧
    (stopHaulwatch s).pending = s.pending := by
  repeat' apply And.intro
  all_goals rfl

/-- R12: a CREEP request changes the mode and the pending command alone. -/
@[simp] theorem creepRequest_keeps (s : State) :
    (creepRequest s).ownAddress = s.ownAddress ∧ (creepRequest s).tables = s.tables ∧
    (creepRequest s).tally = s.tally ∧ (creepRequest s).lay = s.lay ∧ (creepRequest s).mesh = s.mesh ∧
    (creepRequest s).coil = s.coil ∧ (creepRequest s).faults = s.faults ∧ (creepRequest s).portU = s.portU ∧
    (creepRequest s).portD = s.portD ∧ (creepRequest s).store.fqd = s.store.fqd ∧
    (creepRequest s).store.fqu = s.store.fqu ∧ (creepRequest s).store.iqd = s.store.iqd ∧
    (creepRequest s).store.iqu = s.store.iqu ∧ (creepRequest s).store.latchInFlight = s.store.latchInFlight ∧
    (creepRequest s).store.hold = s.store.hold ∧ (creepRequest s).store.arriving = s.store.arriving ∧
    (creepRequest s).store.reserved = s.store.reserved ∧ (creepRequest s).holdOut = s.holdOut ∧
    (creepRequest s).classifier = s.classifier ∧ (creepRequest s).resetIn = s.resetIn ∧
    (creepRequest s).freeDraws = s.freeDraws ∧ (creepRequest s).pending = s.pending := by
  unfold creepRequest
  try dsimp only
  repeat' split
  all_goals simp

/-- R13: a HALT request changes the mode, the pending command and HAULWATCH alone. -/
@[simp] theorem haltRequest_keeps (s : State) :
    (haltRequest s).ownAddress = s.ownAddress ∧ (haltRequest s).tables = s.tables ∧
    (haltRequest s).tally.haulTotal = s.tally.haulTotal ∧
    (haltRequest s).tally.packedTotal = s.tally.packedTotal ∧ (haltRequest s).tally.coil = s.tally.coil ∧
    (haltRequest s).tally.mark = s.tally.mark ∧ (haltRequest s).tally.window = s.tally.window ∧
    (haltRequest s).tally.windowLength = s.tally.windowLength ∧
    (haltRequest s).tally.cutwait = s.tally.cutwait ∧ (haltRequest s).tally.loaded = s.tally.loaded ∧
    (haltRequest s).tally.haulTaken = s.tally.haulTaken ∧ (haltRequest s).tally.shortHaul = s.tally.shortHaul ∧
    (haltRequest s).tally.clippedHaul = s.tally.clippedHaul ∧ (haltRequest s).lay = s.lay ∧
    (haltRequest s).mesh = s.mesh ∧ (haltRequest s).coil = s.coil ∧ (haltRequest s).faults = s.faults ∧
    (haltRequest s).portU = s.portU ∧ (haltRequest s).portD = s.portD ∧
    (haltRequest s).store.fqd = s.store.fqd ∧ (haltRequest s).store.fqu = s.store.fqu ∧
    (haltRequest s).store.iqd = s.store.iqd ∧ (haltRequest s).store.iqu = s.store.iqu ∧
    (haltRequest s).store.latchInFlight = s.store.latchInFlight ∧ (haltRequest s).store.hold = s.store.hold ∧
    (haltRequest s).store.arriving = s.store.arriving ∧ (haltRequest s).store.reserved = s.store.reserved ∧
    (haltRequest s).holdOut = s.holdOut ∧ (haltRequest s).classifier = s.classifier ∧
    (haltRequest s).resetIn = s.resetIn ∧ (haltRequest s).freeDraws = s.freeDraws ∧
    (haltRequest s).pending = s.pending := by
  unfold haltRequest
  try dsimp only
  repeat' split
  all_goals simp

/-- R124 step 6: a mode request changes what R12 and R13 say. -/
@[simp] theorem modeRequest_keeps (c : FaultClass) (s : State) :
    (modeRequest c s).ownAddress = s.ownAddress ∧ (modeRequest c s).tables = s.tables ∧
    (modeRequest c s).tally.haulTotal = s.tally.haulTotal ∧
    (modeRequest c s).tally.packedTotal = s.tally.packedTotal ∧ (modeRequest c s).tally.coil = s.tally.coil ∧
    (modeRequest c s).tally.mark = s.tally.mark ∧ (modeRequest c s).tally.window = s.tally.window ∧
    (modeRequest c s).tally.windowLength = s.tally.windowLength ∧
    (modeRequest c s).tally.cutwait = s.tally.cutwait ∧ (modeRequest c s).tally.loaded = s.tally.loaded ∧
    (modeRequest c s).tally.haulTaken = s.tally.haulTaken ∧
    (modeRequest c s).tally.shortHaul = s.tally.shortHaul ∧
    (modeRequest c s).tally.clippedHaul = s.tally.clippedHaul ∧ (modeRequest c s).lay = s.lay ∧
    (modeRequest c s).mesh = s.mesh ∧ (modeRequest c s).coil = s.coil ∧ (modeRequest c s).faults = s.faults ∧
    (modeRequest c s).portU = s.portU ∧ (modeRequest c s).portD = s.portD ∧
    (modeRequest c s).store.fqd = s.store.fqd ∧ (modeRequest c s).store.fqu = s.store.fqu ∧
    (modeRequest c s).store.iqd = s.store.iqd ∧ (modeRequest c s).store.iqu = s.store.iqu ∧
    (modeRequest c s).store.latchInFlight = s.store.latchInFlight ∧
    (modeRequest c s).store.hold = s.store.hold ∧ (modeRequest c s).store.arriving = s.store.arriving ∧
    (modeRequest c s).store.reserved = s.store.reserved ∧ (modeRequest c s).holdOut = s.holdOut ∧
    (modeRequest c s).classifier = s.classifier ∧ (modeRequest c s).resetIn = s.resetIn ∧
    (modeRequest c s).freeDraws = s.freeDraws ∧ (modeRequest c s).pending = s.pending := by
  cases c <;> simp [modeRequest]

/-- R129: queuing an ALARM changes IQU and the fault list alone. -/
@[simp] theorem queueAlarm_keeps (s : State) (r : FaultRecord) :
    (queueAlarm s r).mode = s.mode ∧ (queueAlarm s r).ownAddress = s.ownAddress ∧
    (queueAlarm s r).tables = s.tables ∧ (queueAlarm s r).tally = s.tally ∧ (queueAlarm s r).lay = s.lay ∧
    (queueAlarm s r).mesh = s.mesh ∧ (queueAlarm s r).coil = s.coil ∧
    (queueAlarm s r).faults.counters = s.faults.counters ∧
    (queueAlarm s r).faults.overflow = s.faults.overflow ∧
    (queueAlarm s r).faults.nextIdentity = s.faults.nextIdentity ∧ (queueAlarm s r).portU = s.portU ∧
    (queueAlarm s r).portD = s.portD ∧ (queueAlarm s r).store.fqd = s.store.fqd ∧
    (queueAlarm s r).store.fqu = s.store.fqu ∧ (queueAlarm s r).store.iqd = s.store.iqd ∧
    (queueAlarm s r).store.latchPending = s.store.latchPending ∧
    (queueAlarm s r).store.latchInFlight = s.store.latchInFlight ∧ (queueAlarm s r).store.hold = s.store.hold ∧
    (queueAlarm s r).store.arriving = s.store.arriving ∧ (queueAlarm s r).store.reserved = s.store.reserved ∧
    (queueAlarm s r).holdOut = s.holdOut ∧ (queueAlarm s r).classifier = s.classifier ∧
    (queueAlarm s r).resetIn = s.resetIn ∧ (queueAlarm s r).freeDraws = s.freeDraws ∧
    (queueAlarm s r).pending = s.pending := by
  simp [queueAlarm]

/-- R130: one record of the sending examination. -/
@[simp] theorem sendIfRoom_keeps (s : State) (r : FaultRecord) :
    (sendIfRoom s r).mode = s.mode ∧ (sendIfRoom s r).ownAddress = s.ownAddress ∧
    (sendIfRoom s r).tables = s.tables ∧ (sendIfRoom s r).tally = s.tally ∧ (sendIfRoom s r).lay = s.lay ∧
    (sendIfRoom s r).mesh = s.mesh ∧ (sendIfRoom s r).coil = s.coil ∧
    (sendIfRoom s r).faults.counters = s.faults.counters ∧
    (sendIfRoom s r).faults.overflow = s.faults.overflow ∧
    (sendIfRoom s r).faults.nextIdentity = s.faults.nextIdentity ∧ (sendIfRoom s r).portU = s.portU ∧
    (sendIfRoom s r).portD = s.portD ∧ (sendIfRoom s r).store.fqd = s.store.fqd ∧
    (sendIfRoom s r).store.fqu = s.store.fqu ∧ (sendIfRoom s r).store.iqd = s.store.iqd ∧
    (sendIfRoom s r).store.latchPending = s.store.latchPending ∧
    (sendIfRoom s r).store.latchInFlight = s.store.latchInFlight ∧ (sendIfRoom s r).store.hold = s.store.hold ∧
    (sendIfRoom s r).store.arriving = s.store.arriving ∧ (sendIfRoom s r).store.reserved = s.store.reserved ∧
    (sendIfRoom s r).holdOut = s.holdOut ∧ (sendIfRoom s r).classifier = s.classifier ∧
    (sendIfRoom s r).resetIn = s.resetIn ∧ (sendIfRoom s r).freeDraws = s.freeDraws ∧
    (sendIfRoom s r).pending = s.pending := by
  unfold sendIfRoom
  try dsimp only
  repeat' split
  all_goals simp

/-- R130: a run of records of the sending examination. -/
@[simp] theorem sendAlarmsOf_keeps (l : List FaultRecord) (s : State) :
    (l.foldl sendIfRoom s).mode = s.mode ∧ (l.foldl sendIfRoom s).ownAddress = s.ownAddress ∧
    (l.foldl sendIfRoom s).tables = s.tables ∧ (l.foldl sendIfRoom s).tally = s.tally ∧
    (l.foldl sendIfRoom s).lay = s.lay ∧ (l.foldl sendIfRoom s).mesh = s.mesh ∧
    (l.foldl sendIfRoom s).coil = s.coil ∧ (l.foldl sendIfRoom s).faults.counters = s.faults.counters ∧
    (l.foldl sendIfRoom s).faults.overflow = s.faults.overflow ∧
    (l.foldl sendIfRoom s).faults.nextIdentity = s.faults.nextIdentity ∧
    (l.foldl sendIfRoom s).portU = s.portU ∧ (l.foldl sendIfRoom s).portD = s.portD ∧
    (l.foldl sendIfRoom s).store.fqd = s.store.fqd ∧ (l.foldl sendIfRoom s).store.fqu = s.store.fqu ∧
    (l.foldl sendIfRoom s).store.iqd = s.store.iqd ∧
    (l.foldl sendIfRoom s).store.latchPending = s.store.latchPending ∧
    (l.foldl sendIfRoom s).store.latchInFlight = s.store.latchInFlight ∧
    (l.foldl sendIfRoom s).store.hold = s.store.hold ∧
    (l.foldl sendIfRoom s).store.arriving = s.store.arriving ∧
    (l.foldl sendIfRoom s).store.reserved = s.store.reserved ∧ (l.foldl sendIfRoom s).holdOut = s.holdOut ∧
    (l.foldl sendIfRoom s).classifier = s.classifier ∧ (l.foldl sendIfRoom s).resetIn = s.resetIn ∧
    (l.foldl sendIfRoom s).freeDraws = s.freeDraws ∧ (l.foldl sendIfRoom s).pending = s.pending := by
  induction l generalizing s with
  | nil => simp
  | cons r rest ih => simp [ih]

/-- R130: the sending examination changes IQU and the fault list alone. -/
@[simp] theorem sendAlarms_keeps (s : State) :
    (sendAlarms s).mode = s.mode ∧ (sendAlarms s).ownAddress = s.ownAddress ∧ (sendAlarms s).tables = s.tables ∧
    (sendAlarms s).tally = s.tally ∧ (sendAlarms s).lay = s.lay ∧ (sendAlarms s).mesh = s.mesh ∧
    (sendAlarms s).coil = s.coil ∧ (sendAlarms s).faults.counters = s.faults.counters ∧
    (sendAlarms s).faults.overflow = s.faults.overflow ∧
    (sendAlarms s).faults.nextIdentity = s.faults.nextIdentity ∧ (sendAlarms s).portU = s.portU ∧
    (sendAlarms s).portD = s.portD ∧ (sendAlarms s).store.fqd = s.store.fqd ∧
    (sendAlarms s).store.fqu = s.store.fqu ∧ (sendAlarms s).store.iqd = s.store.iqd ∧
    (sendAlarms s).store.latchPending = s.store.latchPending ∧
    (sendAlarms s).store.latchInFlight = s.store.latchInFlight ∧ (sendAlarms s).store.hold = s.store.hold ∧
    (sendAlarms s).store.arriving = s.store.arriving ∧ (sendAlarms s).store.reserved = s.store.reserved ∧
    (sendAlarms s).holdOut = s.holdOut ∧ (sendAlarms s).classifier = s.classifier ∧
    (sendAlarms s).resetIn = s.resetIn ∧ (sendAlarms s).freeDraws = s.freeDraws ∧
    (sendAlarms s).pending = s.pending := by
  simp [sendAlarms]

/-- R129: a marking changes the fault list alone. -/
@[simp] theorem markNotified_keeps (identity : Nat) (s : State) :
    (markNotified identity s).mode = s.mode ∧ (markNotified identity s).ownAddress = s.ownAddress ∧
    (markNotified identity s).tables = s.tables ∧ (markNotified identity s).tally = s.tally ∧
    (markNotified identity s).lay = s.lay ∧ (markNotified identity s).mesh = s.mesh ∧
    (markNotified identity s).coil = s.coil ∧ (markNotified identity s).faults.counters = s.faults.counters ∧
    (markNotified identity s).faults.overflow = s.faults.overflow ∧
    (markNotified identity s).faults.nextIdentity = s.faults.nextIdentity ∧
    (markNotified identity s).portU = s.portU ∧ (markNotified identity s).portD = s.portD ∧
    (markNotified identity s).store = s.store ∧ (markNotified identity s).holdOut = s.holdOut ∧
    (markNotified identity s).classifier = s.classifier ∧ (markNotified identity s).resetIn = s.resetIn ∧
    (markNotified identity s).freeDraws = s.freeDraws ∧ (markNotified identity s).pending = s.pending := by
  repeat' apply And.intro
  all_goals rfl

/-- R124 step 1: a counted occurrence changes the occurrence counters alone. -/
@[simp] theorem countOccurrence_keeps (k : FaultKind) (s : State) :
    (countOccurrence k s).mode = s.mode ∧ (countOccurrence k s).ownAddress = s.ownAddress ∧
    (countOccurrence k s).tables = s.tables ∧ (countOccurrence k s).tally = s.tally ∧
    (countOccurrence k s).lay = s.lay ∧ (countOccurrence k s).mesh = s.mesh ∧
    (countOccurrence k s).coil = s.coil ∧ (countOccurrence k s).faults.list = s.faults.list ∧
    (countOccurrence k s).faults.overflow = s.faults.overflow ∧
    (countOccurrence k s).faults.nextIdentity = s.faults.nextIdentity ∧ (countOccurrence k s).portU = s.portU ∧
    (countOccurrence k s).portD = s.portD ∧ (countOccurrence k s).store = s.store ∧
    (countOccurrence k s).holdOut = s.holdOut ∧ (countOccurrence k s).classifier = s.classifier ∧
    (countOccurrence k s).resetIn = s.resetIn ∧ (countOccurrence k s).freeDraws = s.freeDraws ∧
    (countOccurrence k s).pending = s.pending := by
  repeat' apply And.intro
  all_goals rfl

/-- R126, R127: an occurrence entered changes IQU and the fault list alone. -/
@[simp] theorem enterOccurrence_keeps (o : Occurrence) (c : FaultClass) (s : State) :
    (enterOccurrence o c s).mode = s.mode ∧ (enterOccurrence o c s).ownAddress = s.ownAddress ∧
    (enterOccurrence o c s).tables = s.tables ∧ (enterOccurrence o c s).tally = s.tally ∧
    (enterOccurrence o c s).lay = s.lay ∧ (enterOccurrence o c s).mesh = s.mesh ∧
    (enterOccurrence o c s).coil = s.coil ∧ (enterOccurrence o c s).faults.counters = s.faults.counters ∧
    (enterOccurrence o c s).portU = s.portU ∧ (enterOccurrence o c s).portD = s.portD ∧
    (enterOccurrence o c s).store.fqd = s.store.fqd ∧ (enterOccurrence o c s).store.fqu = s.store.fqu ∧
    (enterOccurrence o c s).store.iqd = s.store.iqd ∧
    (enterOccurrence o c s).store.latchPending = s.store.latchPending ∧
    (enterOccurrence o c s).store.latchInFlight = s.store.latchInFlight ∧
    (enterOccurrence o c s).store.hold = s.store.hold ∧
    (enterOccurrence o c s).store.arriving = s.store.arriving ∧
    (enterOccurrence o c s).store.reserved = s.store.reserved ∧ (enterOccurrence o c s).holdOut = s.holdOut ∧
    (enterOccurrence o c s).classifier = s.classifier ∧ (enterOccurrence o c s).resetIn = s.resetIn ∧
    (enterOccurrence o c s).freeDraws = s.freeDraws ∧ (enterOccurrence o c s).pending = s.pending := by
  unfold enterOccurrence
  try dsimp only
  repeat' split
  all_goals simp

/-- R124 step 2. -/
@[simp] theorem handDefect_keeps (o : Occurrence) (s : State) :
    (handDefect o s).mode = s.mode ∧ (handDefect o s).ownAddress = s.ownAddress ∧
    (handDefect o s).tables = s.tables ∧ (handDefect o s).tally = s.tally ∧ (handDefect o s).lay = s.lay ∧
    (handDefect o s).mesh = s.mesh ∧ (handDefect o s).coil.openCoil.number = s.coil.openCoil.number ∧
    (handDefect o s).coil.openCoil.productId = s.coil.openCoil.productId ∧
    (handDefect o s).coil.openCoil.net = s.coil.openCoil.net ∧
    (handDefect o s).coil.openCoil.state = s.coil.openCoil.state ∧
    (handDefect o s).coil.openCoil.length = s.coil.openCoil.length ∧
    (handDefect o s).coil.openCoil.start = s.coil.openCoil.start ∧
    (handDefect o s).coil.openCoil.rows = s.coil.openCoil.rows ∧
    (handDefect o s).coil.openCoil.worstDeviation = s.coil.openCoil.worstDeviation ∧
    (handDefect o s).coil.openCoil.driftWindows = s.coil.openCoil.driftWindows ∧
    (handDefect o s).coil.openCoil.grade = s.coil.openCoil.grade ∧
    (handDefect o s).coil.openCoil.cutLag = s.coil.openCoil.cutLag ∧
    (handDefect o s).coil.openCoil.overdue = s.coil.openCoil.overdue ∧
    (handDefect o s).coil.openCoil.overlengthNoted = s.coil.openCoil.overlengthNoted ∧
    (handDefect o s).coil.queue = s.coil.queue ∧ (handDefect o s).coil.counter = s.coil.counter ∧
    (handDefect o s).coil.current = s.coil.current ∧ (handDefect o s).coil.next = s.coil.next ∧
    (handDefect o s).coil.pendingTake = s.coil.pendingTake ∧
    (handDefect o s).coil.rejectedFrames = s.coil.rejectedFrames ∧
    (handDefect o s).coil.marksMissed = s.coil.marksMissed ∧
    (handDefect o s).coil.takeOverruns = s.coil.takeOverruns ∧
    (handDefect o s).coil.nacksNotSent = s.coil.nacksNotSent ∧
    (handDefect o s).coil.refusedChangeovers = s.coil.refusedChangeovers ∧ (handDefect o s).faults = s.faults ∧
    (handDefect o s).portU = s.portU ∧ (handDefect o s).portD = s.portD ∧ (handDefect o s).store = s.store ∧
    (handDefect o s).holdOut = s.holdOut ∧ (handDefect o s).classifier = s.classifier ∧
    (handDefect o s).resetIn = s.resetIn ∧ (handDefect o s).freeDraws = s.freeDraws ∧
    (handDefect o s).pending = s.pending := by
  unfold handDefect
  try dsimp only
  repeat' split
  all_goals simp

/-- R124: an occurrence handled changes the mode, the pending command, HAULWATCH, the open coil's defects, the
faults and IQU, and nothing else. -/
@[simp] theorem handle_keeps (o : Occurrence) (s : State) :
    (handle o s).ownAddress = s.ownAddress ∧ (handle o s).tables = s.tables ∧
    (handle o s).tally.haulTotal = s.tally.haulTotal ∧ (handle o s).tally.packedTotal = s.tally.packedTotal ∧
    (handle o s).tally.coil = s.tally.coil ∧ (handle o s).tally.mark = s.tally.mark ∧
    (handle o s).tally.window = s.tally.window ∧ (handle o s).tally.windowLength = s.tally.windowLength ∧
    (handle o s).tally.cutwait = s.tally.cutwait ∧ (handle o s).tally.loaded = s.tally.loaded ∧
    (handle o s).tally.haulTaken = s.tally.haulTaken ∧ (handle o s).tally.shortHaul = s.tally.shortHaul ∧
    (handle o s).tally.clippedHaul = s.tally.clippedHaul ∧ (handle o s).lay = s.lay ∧
    (handle o s).mesh = s.mesh ∧ (handle o s).coil.openCoil.number = s.coil.openCoil.number ∧
    (handle o s).coil.openCoil.productId = s.coil.openCoil.productId ∧
    (handle o s).coil.openCoil.net = s.coil.openCoil.net ∧
    (handle o s).coil.openCoil.state = s.coil.openCoil.state ∧
    (handle o s).coil.openCoil.length = s.coil.openCoil.length ∧
    (handle o s).coil.openCoil.start = s.coil.openCoil.start ∧
    (handle o s).coil.openCoil.rows = s.coil.openCoil.rows ∧
    (handle o s).coil.openCoil.worstDeviation = s.coil.openCoil.worstDeviation ∧
    (handle o s).coil.openCoil.driftWindows = s.coil.openCoil.driftWindows ∧
    (handle o s).coil.openCoil.grade = s.coil.openCoil.grade ∧
    (handle o s).coil.openCoil.cutLag = s.coil.openCoil.cutLag ∧
    (handle o s).coil.openCoil.overdue = s.coil.openCoil.overdue ∧
    (handle o s).coil.openCoil.overlengthNoted = s.coil.openCoil.overlengthNoted ∧
    (handle o s).coil.queue = s.coil.queue ∧ (handle o s).coil.counter = s.coil.counter ∧
    (handle o s).coil.current = s.coil.current ∧ (handle o s).coil.next = s.coil.next ∧
    (handle o s).coil.pendingTake = s.coil.pendingTake ∧
    (handle o s).coil.rejectedFrames = s.coil.rejectedFrames ∧
    (handle o s).coil.marksMissed = s.coil.marksMissed ∧ (handle o s).coil.takeOverruns = s.coil.takeOverruns ∧
    (handle o s).coil.nacksNotSent = s.coil.nacksNotSent ∧
    (handle o s).coil.refusedChangeovers = s.coil.refusedChangeovers ∧ (handle o s).portU = s.portU ∧
    (handle o s).portD = s.portD ∧ (handle o s).store.fqd = s.store.fqd ∧ (handle o s).store.fqu = s.store.fqu ∧
    (handle o s).store.iqd = s.store.iqd ∧ (handle o s).store.latchInFlight = s.store.latchInFlight ∧
    (handle o s).store.hold = s.store.hold ∧ (handle o s).store.arriving = s.store.arriving ∧
    (handle o s).store.reserved = s.store.reserved ∧ (handle o s).holdOut = s.holdOut ∧
    (handle o s).classifier = s.classifier ∧ (handle o s).resetIn = s.resetIn ∧
    (handle o s).freeDraws = s.freeDraws ∧ (handle o s).pending = s.pending := by
  unfold handle
  try dsimp only
  repeat' split
  all_goals simp

/-- R121: an occurrence raised changes what its handling changes. -/
@[simp] theorem raise_keeps (k : FaultKind) (src : Option Nat) (count extent : Nat) (s : State) :
    (raise k src count extent s).ownAddress = s.ownAddress ∧ (raise k src count extent s).tables = s.tables ∧
    (raise k src count extent s).tally.haulTotal = s.tally.haulTotal ∧
    (raise k src count extent s).tally.packedTotal = s.tally.packedTotal ∧
    (raise k src count extent s).tally.coil = s.tally.coil ∧
    (raise k src count extent s).tally.mark = s.tally.mark ∧
    (raise k src count extent s).tally.window = s.tally.window ∧
    (raise k src count extent s).tally.windowLength = s.tally.windowLength ∧
    (raise k src count extent s).tally.cutwait = s.tally.cutwait ∧
    (raise k src count extent s).tally.loaded = s.tally.loaded ∧
    (raise k src count extent s).tally.haulTaken = s.tally.haulTaken ∧
    (raise k src count extent s).tally.shortHaul = s.tally.shortHaul ∧
    (raise k src count extent s).tally.clippedHaul = s.tally.clippedHaul ∧
    (raise k src count extent s).lay = s.lay ∧ (raise k src count extent s).mesh = s.mesh ∧
    (raise k src count extent s).coil.openCoil.number = s.coil.openCoil.number ∧
    (raise k src count extent s).coil.openCoil.productId = s.coil.openCoil.productId ∧
    (raise k src count extent s).coil.openCoil.net = s.coil.openCoil.net ∧
    (raise k src count extent s).coil.openCoil.state = s.coil.openCoil.state ∧
    (raise k src count extent s).coil.openCoil.length = s.coil.openCoil.length ∧
    (raise k src count extent s).coil.openCoil.start = s.coil.openCoil.start ∧
    (raise k src count extent s).coil.openCoil.rows = s.coil.openCoil.rows ∧
    (raise k src count extent s).coil.openCoil.worstDeviation = s.coil.openCoil.worstDeviation ∧
    (raise k src count extent s).coil.openCoil.driftWindows = s.coil.openCoil.driftWindows ∧
    (raise k src count extent s).coil.openCoil.grade = s.coil.openCoil.grade ∧
    (raise k src count extent s).coil.openCoil.cutLag = s.coil.openCoil.cutLag ∧
    (raise k src count extent s).coil.openCoil.overdue = s.coil.openCoil.overdue ∧
    (raise k src count extent s).coil.openCoil.overlengthNoted = s.coil.openCoil.overlengthNoted ∧
    (raise k src count extent s).coil.queue = s.coil.queue ∧
    (raise k src count extent s).coil.counter = s.coil.counter ∧
    (raise k src count extent s).coil.current = s.coil.current ∧
    (raise k src count extent s).coil.next = s.coil.next ∧
    (raise k src count extent s).coil.pendingTake = s.coil.pendingTake ∧
    (raise k src count extent s).coil.rejectedFrames = s.coil.rejectedFrames ∧
    (raise k src count extent s).coil.marksMissed = s.coil.marksMissed ∧
    (raise k src count extent s).coil.takeOverruns = s.coil.takeOverruns ∧
    (raise k src count extent s).coil.nacksNotSent = s.coil.nacksNotSent ∧
    (raise k src count extent s).coil.refusedChangeovers = s.coil.refusedChangeovers ∧
    (raise k src count extent s).portU = s.portU ∧ (raise k src count extent s).portD = s.portD ∧
    (raise k src count extent s).store.fqd = s.store.fqd ∧
    (raise k src count extent s).store.fqu = s.store.fqu ∧
    (raise k src count extent s).store.iqd = s.store.iqd ∧
    (raise k src count extent s).store.latchInFlight = s.store.latchInFlight ∧
    (raise k src count extent s).store.hold = s.store.hold ∧
    (raise k src count extent s).store.arriving = s.store.arriving ∧
    (raise k src count extent s).store.reserved = s.store.reserved ∧
    (raise k src count extent s).holdOut = s.holdOut ∧ (raise k src count extent s).classifier = s.classifier ∧
    (raise k src count extent s).resetIn = s.resetIn ∧ (raise k src count extent s).freeDraws = s.freeDraws ∧
    (raise k src count extent s).pending = s.pending := by
  simp [raise]

/-- R121: occurrences handed on one after another. -/
@[simp] theorem handleAll_keeps (l : List Occurrence) (s : State) :
    (handleAll l s).ownAddress = s.ownAddress ∧ (handleAll l s).tables = s.tables ∧
    (handleAll l s).tally.haulTotal = s.tally.haulTotal ∧
    (handleAll l s).tally.packedTotal = s.tally.packedTotal ∧ (handleAll l s).tally.coil = s.tally.coil ∧
    (handleAll l s).tally.mark = s.tally.mark ∧ (handleAll l s).tally.window = s.tally.window ∧
    (handleAll l s).tally.windowLength = s.tally.windowLength ∧
    (handleAll l s).tally.cutwait = s.tally.cutwait ∧ (handleAll l s).tally.loaded = s.tally.loaded ∧
    (handleAll l s).tally.haulTaken = s.tally.haulTaken ∧ (handleAll l s).tally.shortHaul = s.tally.shortHaul ∧
    (handleAll l s).tally.clippedHaul = s.tally.clippedHaul ∧ (handleAll l s).lay = s.lay ∧
    (handleAll l s).mesh = s.mesh ∧ (handleAll l s).coil.openCoil.number = s.coil.openCoil.number ∧
    (handleAll l s).coil.openCoil.productId = s.coil.openCoil.productId ∧
    (handleAll l s).coil.openCoil.net = s.coil.openCoil.net ∧
    (handleAll l s).coil.openCoil.state = s.coil.openCoil.state ∧
    (handleAll l s).coil.openCoil.length = s.coil.openCoil.length ∧
    (handleAll l s).coil.openCoil.start = s.coil.openCoil.start ∧
    (handleAll l s).coil.openCoil.rows = s.coil.openCoil.rows ∧
    (handleAll l s).coil.openCoil.worstDeviation = s.coil.openCoil.worstDeviation ∧
    (handleAll l s).coil.openCoil.driftWindows = s.coil.openCoil.driftWindows ∧
    (handleAll l s).coil.openCoil.grade = s.coil.openCoil.grade ∧
    (handleAll l s).coil.openCoil.cutLag = s.coil.openCoil.cutLag ∧
    (handleAll l s).coil.openCoil.overdue = s.coil.openCoil.overdue ∧
    (handleAll l s).coil.openCoil.overlengthNoted = s.coil.openCoil.overlengthNoted ∧
    (handleAll l s).coil.queue = s.coil.queue ∧ (handleAll l s).coil.counter = s.coil.counter ∧
    (handleAll l s).coil.current = s.coil.current ∧ (handleAll l s).coil.next = s.coil.next ∧
    (handleAll l s).coil.pendingTake = s.coil.pendingTake ∧
    (handleAll l s).coil.rejectedFrames = s.coil.rejectedFrames ∧
    (handleAll l s).coil.marksMissed = s.coil.marksMissed ∧
    (handleAll l s).coil.takeOverruns = s.coil.takeOverruns ∧
    (handleAll l s).coil.nacksNotSent = s.coil.nacksNotSent ∧
    (handleAll l s).coil.refusedChangeovers = s.coil.refusedChangeovers ∧ (handleAll l s).portU = s.portU ∧
    (handleAll l s).portD = s.portD ∧ (handleAll l s).store.fqd = s.store.fqd ∧
    (handleAll l s).store.fqu = s.store.fqu ∧ (handleAll l s).store.iqd = s.store.iqd ∧
    (handleAll l s).store.latchInFlight = s.store.latchInFlight ∧ (handleAll l s).store.hold = s.store.hold ∧
    (handleAll l s).store.arriving = s.store.arriving ∧ (handleAll l s).store.reserved = s.store.reserved ∧
    (handleAll l s).holdOut = s.holdOut ∧ (handleAll l s).classifier = s.classifier ∧
    (handleAll l s).resetIn = s.resetIn ∧ (handleAll l s).freeDraws = s.freeDraws ∧
    (handleAll l s).pending = s.pending := by
  unfold handleAll
  induction l generalizing s with
  | nil => simp
  | cons o rest ih => simp [ih]

/-- R14: the CREEP exit examination changes the mode and the pending command alone. -/
@[simp] theorem creepExit_keeps (s : State) :
    (creepExit s).ownAddress = s.ownAddress ∧ (creepExit s).tables = s.tables ∧ (creepExit s).tally = s.tally ∧
    (creepExit s).lay = s.lay ∧ (creepExit s).mesh = s.mesh ∧ (creepExit s).coil = s.coil ∧
    (creepExit s).faults = s.faults ∧ (creepExit s).portU = s.portU ∧ (creepExit s).portD = s.portD ∧
    (creepExit s).store.fqd = s.store.fqd ∧ (creepExit s).store.fqu = s.store.fqu ∧
    (creepExit s).store.iqd = s.store.iqd ∧ (creepExit s).store.iqu = s.store.iqu ∧
    (creepExit s).store.latchInFlight = s.store.latchInFlight ∧ (creepExit s).store.hold = s.store.hold ∧
    (creepExit s).store.arriving = s.store.arriving ∧ (creepExit s).store.reserved = s.store.reserved ∧
    (creepExit s).holdOut = s.holdOut ∧ (creepExit s).classifier = s.classifier ∧
    (creepExit s).resetIn = s.resetIn ∧ (creepExit s).freeDraws = s.freeDraws ∧
    (creepExit s).pending = s.pending := by
  unfold creepExit
  try dsimp only
  repeat' split
  all_goals simp

end Sys2Proof.Machine
end

