-- ==== Sys2Proof/Laws/Alarms.lean ====
section
/-! SUPPORT. What the ALARM sending examination queues (R128 to R130). -/

namespace Sys2Proof.Machine

/-- R128: the IQU entry of a record's ALARM. -/
def State.alarmEntry (s : State) (r : FaultRecord) : InjFrame :=
  { frame := s.originate (s.tables.addressOf .master 0) .alarm (alarmPayload r), mark := .alarm r.identity }

/-- R130: the records of a list that wait, as many as IQU has free entries for, oldest first. -/
def servedBy (l : List FaultRecord) (s : State) : List FaultRecord :=
  (l.filter FaultRecord.waits).take (4 - s.iquHeld)

/-- R129, R130: the state with the ALARMs of these records queued. -/
def alarmsQueued (served : List FaultRecord) (s : State) : State :=
  { s with
    faults.list := s.faults.list.map
      (fun x => if x.identity ∈ served.map FaultRecord.identity then { x with queued := true } else x)
    store.iqu := s.store.iqu ++ served.map s.alarmEntry }

/-- R130: with no record to serve nothing changes. -/
theorem alarmsQueued_nil (s : State) : alarmsQueued [] s = s := by
  simp [alarmsQueued]

/-- R130: the records of a list, taken one after another. -/
theorem sendIfRoom_all (l : List FaultRecord) (s : State) : l.foldl sendIfRoom s = alarmsQueued (servedBy l s) s := by
  induction l generalizing s with
  | nil => simp [servedBy, alarmsQueued_nil]
  | cons r l ih =>
    rw [List.foldl_cons, ih]
    by_cases hw : r.waits = true
    · by_cases hr : s.iquHeld < 4
      · have hs : sendIfRoom s r = queueAlarm s r := by
          unfold sendIfRoom State.iquRoom
          rw [if_pos (by simp [hw, hr])]
        have hh : (queueAlarm s r).iquHeld = s.iquHeld + 1 := by
          simp [State.iquHeld, queueAlarm, State.queueIqu]
          omega
        have ht : servedBy (r :: l) s = r :: servedBy l (queueAlarm s r) := by
          unfold servedBy
          rw [List.filter_cons_of_pos hw, hh, show 4 - s.iquHeld = (4 - (s.iquHeld + 1)) + 1 from by omega,
            List.take_succ_cons]
        rw [hs, ht]
        generalize servedBy l (queueAlarm s r) = served
        have he : (queueAlarm s r).alarmEntry = s.alarmEntry := rfl
        unfold alarmsQueued
        rw [he]
        unfold queueAlarm updateRecord State.queueIqu
        dsimp only
        rw [List.map_map, List.append_assoc]
        congr 1
        · congr 1
          refine List.map_congr_left (fun x _ => ?_)
          simp only [Function.comp_apply, List.map_cons, List.mem_cons]
          by_cases h1 : x.identity = r.identity
          · simp [h1]
          · simp [h1]
      · have hs : sendIfRoom s r = s := by
          unfold sendIfRoom State.iquRoom
          rw [if_neg (by simp [hr])]
        rw [hs]
        unfold servedBy
        rw [show 4 - s.iquHeld = 0 from by omega, List.take_zero, List.take_zero]
    · have hs : sendIfRoom s r = s := by
        unfold sendIfRoom
        rw [if_neg (by simp [hw])]
      rw [hs]
      unfold servedBy
      rw [List.filter_cons_of_neg hw]

/-- R130: the examination queues the ALARMs of the oldest records that wait. -/
theorem sendAlarms_served (s : State) : sendAlarms s = alarmsQueued (servedBy s.faults.list s) s :=
  sendIfRoom_all s.faults.list s

/-- Distinct records have distinct identities. -/
theorem inj_of_nodup {l : List FaultRecord} (h : (l.map FaultRecord.identity).Nodup) {x y : FaultRecord} (hx : x ∈ l)
    (hy : y ∈ l) (he : x.identity = y.identity) : x = y := by
  induction l with
  | nil => simp at hx
  | cons a rest ih =>
    have hn := List.nodup_cons.1 (by rw [List.map_cons] at h; exact h)
    rcases List.mem_cons.1 hx with hx' | hx' <;> rcases List.mem_cons.1 hy with hy' | hy'
    · rw [hx', hy']
    · exact absurd (by rw [← hx', he]; exact List.mem_map_of_mem hy') hn.1
    · exact absurd (by rw [← hy', ← he]; exact List.mem_map_of_mem hx') hn.1
    · exact ih hn.2 hx' hy'

/-- R129: with distinct identities a record's identity tells whether it is served. -/
theorem mem_served_iff {l served : List FaultRecord} (hn : (l.map FaultRecord.identity).Nodup)
    (hs : ∀ r ∈ served, r ∈ l) {x : FaultRecord} (hx : x ∈ l) :
    x.identity ∈ served.map FaultRecord.identity ↔ x ∈ served := by
  rw [List.mem_map]
  constructor
  · rintro ⟨r, hr, he⟩
    exact inj_of_nodup hn (hs r hr) hx he ▸ hr
  · intro h
    exact ⟨x, h, rfl⟩

/-- R130: the records served are of the list. -/
theorem mem_of_servedBy {l : List FaultRecord} {s : State} : ∀ r ∈ servedBy l s, r ∈ l :=
  fun _ h => (List.mem_filter.1 (List.mem_of_mem_take h)).1

/-- R130: the list left by the examination, record by record. -/
theorem sendAlarms_eq (s : State) (hn : (s.faults.list.map FaultRecord.identity).Nodup) :
    sendAlarms s = { s with
      faults.list := s.faults.list.map
        (fun x => if x ∈ servedBy s.faults.list s then { x with queued := true } else x)
      store.iqu := s.store.iqu ++ (servedBy s.faults.list s).map s.alarmEntry } := by
  rw [sendAlarms_served]
  unfold alarmsQueued
  rw [List.map_congr_left (fun x hx => ite_congr (propext (mem_served_iff hn mem_of_servedBy hx)) (fun _ => rfl) (fun _ => rfl))]

/-- R130: with one entry free the oldest record that waits has it. -/
theorem servedBy_oldest {before after : List FaultRecord} {r : FaultRecord} {s : State} (h3 : s.iquHeld = 3)
    (hb : ∀ x ∈ before, x.waits = false) (hr : r.waits = true) : servedBy (before ++ r :: after) s = [r] := by
  have : before.filter FaultRecord.waits = [] := List.filter_eq_nil_iff.2 (fun x hx => by simp [hb x hx])
  unfold servedBy
  rw [List.filter_append, this, List.filter_cons_of_pos hr, h3]
  rfl

/-- R129: with distinct identities a change of the one record served is a change in its place. -/
theorem map_one_record {before after : List FaultRecord} {r : FaultRecord} (f : FaultRecord → FaultRecord)
    (hn : ((before ++ r :: after).map FaultRecord.identity).Nodup) :
    (before ++ r :: after).map (fun x => if x ∈ [r] then f x else x) = before ++ f r :: after := by
  have hd : (before ++ r :: after).Nodup := by
    rw [List.Nodup, List.pairwise_map] at hn
    exact hn.imp (fun h e => h (congrArg _ e))
  rw [List.nodup_append, List.nodup_cons] at hd
  rw [List.map_append, List.map_cons]
  congr 1
  · refine (List.map_congr_left (fun x hx => if_neg ?_)).trans (List.map_id _)
    exact fun e => hd.2.2 x hx r (by simp) (List.mem_singleton.1 e)
  · congr 1
    · simp
    · refine (List.map_congr_left (fun x hx => if_neg ?_)).trans (List.map_id _)
      exact fun e => hd.2.1.1 (List.mem_singleton.1 e ▸ hx)

/-- R130: where no record waits, or IQU is full, the examination changes nothing. -/
theorem sendAlarms_idle (s : State) (h : s.faults.list.filter FaultRecord.waits = [] ∨ 4 ≤ s.iquHeld) :
    sendAlarms s = s := by
  have : servedBy s.faults.list s = [] := by
    unfold servedBy
    rcases h with h | h
    · rw [h, List.take_nil]
    · rw [show 4 - s.iquHeld = 0 from by omega, List.take_zero]
  rw [sendAlarms_served, this, alarmsQueued_nil]

end Sys2Proof.Machine
end

