-- ==== Sys2Proof/Laws/Counters.lean ====
section
/-! SUPPORT. What presetting and stopping the tally counters can change. -/

namespace Sys2Proof.Machine

/-- R27. -/
@[simp] theorem presetCoil_keeps (s : State) :
    (presetCoil s).mode = s.mode ∧ (presetCoil s).ownAddress = s.ownAddress ∧ (presetCoil s).tables = s.tables ∧
    (presetCoil s).tally.haulTotal = s.tally.haulTotal ∧
    (presetCoil s).tally.packedTotal = s.tally.packedTotal ∧ (presetCoil s).tally.mark = s.tally.mark ∧
    (presetCoil s).tally.window = s.tally.window ∧ (presetCoil s).tally.windowLength = s.tally.windowLength ∧
    (presetCoil s).tally.haulwatch = s.tally.haulwatch ∧ (presetCoil s).tally.cutwait = s.tally.cutwait ∧
    (presetCoil s).tally.loaded = s.tally.loaded ∧ (presetCoil s).tally.haulTaken = s.tally.haulTaken ∧
    (presetCoil s).tally.shortHaul = s.tally.shortHaul ∧
    (presetCoil s).tally.clippedHaul = s.tally.clippedHaul ∧ (presetCoil s).lay = s.lay ∧
    (presetCoil s).mesh = s.mesh ∧ (presetCoil s).coil = s.coil ∧ (presetCoil s).faults = s.faults ∧
    (presetCoil s).portU = s.portU ∧ (presetCoil s).portD = s.portD ∧ (presetCoil s).store = s.store ∧
    (presetCoil s).holdOut = s.holdOut ∧ (presetCoil s).classifier = s.classifier ∧
    (presetCoil s).resetIn = s.resetIn ∧ (presetCoil s).freeDraws = s.freeDraws ∧
    (presetCoil s).pending = s.pending := by
  simp [presetCoil]

/-- R28. -/
@[simp] theorem presetMark_keeps (s : State) :
    (presetMark s).mode = s.mode ∧ (presetMark s).ownAddress = s.ownAddress ∧ (presetMark s).tables = s.tables ∧
    (presetMark s).tally.haulTotal = s.tally.haulTotal ∧
    (presetMark s).tally.packedTotal = s.tally.packedTotal ∧ (presetMark s).tally.coil = s.tally.coil ∧
    (presetMark s).tally.window = s.tally.window ∧ (presetMark s).tally.windowLength = s.tally.windowLength ∧
    (presetMark s).tally.haulwatch = s.tally.haulwatch ∧ (presetMark s).tally.cutwait = s.tally.cutwait ∧
    (presetMark s).tally.loaded = s.tally.loaded ∧ (presetMark s).tally.haulTaken = s.tally.haulTaken ∧
    (presetMark s).tally.shortHaul = s.tally.shortHaul ∧
    (presetMark s).tally.clippedHaul = s.tally.clippedHaul ∧ (presetMark s).lay = s.lay ∧
    (presetMark s).mesh = s.mesh ∧ (presetMark s).coil = s.coil ∧ (presetMark s).faults = s.faults ∧
    (presetMark s).portU = s.portU ∧ (presetMark s).portD = s.portD ∧ (presetMark s).store = s.store ∧
    (presetMark s).holdOut = s.holdOut ∧ (presetMark s).classifier = s.classifier ∧
    (presetMark s).resetIn = s.resetIn ∧ (presetMark s).freeDraws = s.freeDraws ∧
    (presetMark s).pending = s.pending := by
  simp [presetMark]

/-- R29. -/
@[simp] theorem presetWindow_keeps (s : State) :
    (presetWindow s).mode = s.mode ∧ (presetWindow s).ownAddress = s.ownAddress ∧
    (presetWindow s).tables = s.tables ∧ (presetWindow s).tally.haulTotal = s.tally.haulTotal ∧
    (presetWindow s).tally.packedTotal = s.tally.packedTotal ∧ (presetWindow s).tally.coil = s.tally.coil ∧
    (presetWindow s).tally.mark = s.tally.mark ∧ (presetWindow s).tally.haulwatch = s.tally.haulwatch ∧
    (presetWindow s).tally.cutwait = s.tally.cutwait ∧ (presetWindow s).tally.loaded = s.tally.loaded ∧
    (presetWindow s).tally.haulTaken = s.tally.haulTaken ∧
    (presetWindow s).tally.shortHaul = s.tally.shortHaul ∧
    (presetWindow s).tally.clippedHaul = s.tally.clippedHaul ∧ (presetWindow s).lay = s.lay ∧
    (presetWindow s).mesh = s.mesh ∧ (presetWindow s).coil = s.coil ∧ (presetWindow s).faults = s.faults ∧
    (presetWindow s).portU = s.portU ∧ (presetWindow s).portD = s.portD ∧ (presetWindow s).store = s.store ∧
    (presetWindow s).holdOut = s.holdOut ∧ (presetWindow s).classifier = s.classifier ∧
    (presetWindow s).resetIn = s.resetIn ∧ (presetWindow s).freeDraws = s.freeDraws ∧
    (presetWindow s).pending = s.pending := by
  simp [presetWindow]

/-- R30. -/
@[simp] theorem presetAll_keeps (s : State) :
    (presetAll s).mode = s.mode ∧ (presetAll s).ownAddress = s.ownAddress ∧ (presetAll s).tables = s.tables ∧
    (presetAll s).tally.haulTotal = s.tally.haulTotal ∧ (presetAll s).tally.packedTotal = s.tally.packedTotal ∧
    (presetAll s).tally.haulwatch = s.tally.haulwatch ∧ (presetAll s).tally.cutwait = s.tally.cutwait ∧
    (presetAll s).tally.haulTaken = s.tally.haulTaken ∧ (presetAll s).tally.shortHaul = s.tally.shortHaul ∧
    (presetAll s).tally.clippedHaul = s.tally.clippedHaul ∧ (presetAll s).lay = s.lay ∧
    (presetAll s).mesh = s.mesh ∧ (presetAll s).coil = s.coil ∧ (presetAll s).faults = s.faults ∧
    (presetAll s).portU = s.portU ∧ (presetAll s).portD = s.portD ∧ (presetAll s).store = s.store ∧
    (presetAll s).holdOut = s.holdOut ∧ (presetAll s).classifier = s.classifier ∧
    (presetAll s).resetIn = s.resetIn ∧ (presetAll s).freeDraws = s.freeDraws ∧
    (presetAll s).pending = s.pending := by
  simp [presetCoil, presetMark, presetWindow, presetAll]

/-- R32. -/
@[simp] theorem presetHaulwatch_keeps (s : State) :
    (presetHaulwatch s).mode = s.mode ∧ (presetHaulwatch s).ownAddress = s.ownAddress ∧
    (presetHaulwatch s).tables = s.tables ∧ (presetHaulwatch s).tally.haulTotal = s.tally.haulTotal ∧
    (presetHaulwatch s).tally.packedTotal = s.tally.packedTotal ∧
    (presetHaulwatch s).tally.coil = s.tally.coil ∧ (presetHaulwatch s).tally.mark = s.tally.mark ∧
    (presetHaulwatch s).tally.window = s.tally.window ∧
    (presetHaulwatch s).tally.windowLength = s.tally.windowLength ∧
    (presetHaulwatch s).tally.cutwait = s.tally.cutwait ∧ (presetHaulwatch s).tally.loaded = s.tally.loaded ∧
    (presetHaulwatch s).tally.haulTaken = s.tally.haulTaken ∧
    (presetHaulwatch s).tally.shortHaul = s.tally.shortHaul ∧
    (presetHaulwatch s).tally.clippedHaul = s.tally.clippedHaul ∧ (presetHaulwatch s).lay = s.lay ∧
    (presetHaulwatch s).mesh = s.mesh ∧ (presetHaulwatch s).coil = s.coil ∧
    (presetHaulwatch s).faults = s.faults ∧ (presetHaulwatch s).portU = s.portU ∧
    (presetHaulwatch s).portD = s.portD ∧ (presetHaulwatch s).store = s.store ∧
    (presetHaulwatch s).holdOut = s.holdOut ∧ (presetHaulwatch s).classifier = s.classifier ∧
    (presetHaulwatch s).resetIn = s.resetIn ∧ (presetHaulwatch s).freeDraws = s.freeDraws ∧
    (presetHaulwatch s).pending = s.pending := by
  simp [presetHaulwatch]

/-- R33. -/
@[simp] theorem presetCutwait_keeps (s : State) :
    (presetCutwait s).mode = s.mode ∧ (presetCutwait s).ownAddress = s.ownAddress ∧
    (presetCutwait s).tables = s.tables ∧ (presetCutwait s).tally.haulTotal = s.tally.haulTotal ∧
    (presetCutwait s).tally.packedTotal = s.tally.packedTotal ∧ (presetCutwait s).tally.coil = s.tally.coil ∧
    (presetCutwait s).tally.mark = s.tally.mark ∧ (presetCutwait s).tally.window = s.tally.window ∧
    (presetCutwait s).tally.windowLength = s.tally.windowLength ∧
    (presetCutwait s).tally.haulwatch = s.tally.haulwatch ∧ (presetCutwait s).tally.loaded = s.tally.loaded ∧
    (presetCutwait s).tally.haulTaken = s.tally.haulTaken ∧
    (presetCutwait s).tally.shortHaul = s.tally.shortHaul ∧
    (presetCutwait s).tally.clippedHaul = s.tally.clippedHaul ∧ (presetCutwait s).lay = s.lay ∧
    (presetCutwait s).mesh = s.mesh ∧ (presetCutwait s).coil = s.coil ∧ (presetCutwait s).faults = s.faults ∧
    (presetCutwait s).portU = s.portU ∧ (presetCutwait s).portD = s.portD ∧ (presetCutwait s).store = s.store ∧
    (presetCutwait s).holdOut = s.holdOut ∧ (presetCutwait s).classifier = s.classifier ∧
    (presetCutwait s).resetIn = s.resetIn ∧ (presetCutwait s).freeDraws = s.freeDraws ∧
    (presetCutwait s).pending = s.pending := by
  simp [presetCutwait]

/-- R33. -/
@[simp] theorem stopCutwait_keeps (s : State) :
    (stopCutwait s).mode = s.mode ∧ (stopCutwait s).ownAddress = s.ownAddress ∧
    (stopCutwait s).tables = s.tables ∧ (stopCutwait s).tally.haulTotal = s.tally.haulTotal ∧
    (stopCutwait s).tally.packedTotal = s.tally.packedTotal ∧ (stopCutwait s).tally.coil = s.tally.coil ∧
    (stopCutwait s).tally.mark = s.tally.mark ∧ (stopCutwait s).tally.window = s.tally.window ∧
    (stopCutwait s).tally.windowLength = s.tally.windowLength ∧
    (stopCutwait s).tally.haulwatch = s.tally.haulwatch ∧ (stopCutwait s).tally.loaded = s.tally.loaded ∧
    (stopCutwait s).tally.haulTaken = s.tally.haulTaken ∧ (stopCutwait s).tally.shortHaul = s.tally.shortHaul ∧
    (stopCutwait s).tally.clippedHaul = s.tally.clippedHaul ∧ (stopCutwait s).lay = s.lay ∧
    (stopCutwait s).mesh = s.mesh ∧ (stopCutwait s).coil = s.coil ∧ (stopCutwait s).faults = s.faults ∧
    (stopCutwait s).portU = s.portU ∧ (stopCutwait s).portD = s.portD ∧ (stopCutwait s).store = s.store ∧
    (stopCutwait s).holdOut = s.holdOut ∧ (stopCutwait s).classifier = s.classifier ∧
    (stopCutwait s).resetIn = s.resetIn ∧ (stopCutwait s).freeDraws = s.freeDraws ∧
    (stopCutwait s).pending = s.pending := by
  simp [stopCutwait]

/-- R27. -/
@[simp] theorem stopCoil_keeps (s : State) :
    (stopCoil s).mode = s.mode ∧ (stopCoil s).ownAddress = s.ownAddress ∧ (stopCoil s).tables = s.tables ∧
    (stopCoil s).tally.haulTotal = s.tally.haulTotal ∧ (stopCoil s).tally.packedTotal = s.tally.packedTotal ∧
    (stopCoil s).tally.mark = s.tally.mark ∧ (stopCoil s).tally.window = s.tally.window ∧
    (stopCoil s).tally.windowLength = s.tally.windowLength ∧ (stopCoil s).tally.haulwatch = s.tally.haulwatch ∧
    (stopCoil s).tally.cutwait = s.tally.cutwait ∧ (stopCoil s).tally.loaded = s.tally.loaded ∧
    (stopCoil s).tally.haulTaken = s.tally.haulTaken ∧ (stopCoil s).tally.shortHaul = s.tally.shortHaul ∧
    (stopCoil s).tally.clippedHaul = s.tally.clippedHaul ∧ (stopCoil s).lay = s.lay ∧
    (stopCoil s).mesh = s.mesh ∧ (stopCoil s).coil = s.coil ∧ (stopCoil s).faults = s.faults ∧
    (stopCoil s).portU = s.portU ∧ (stopCoil s).portD = s.portD ∧ (stopCoil s).store = s.store ∧
    (stopCoil s).holdOut = s.holdOut ∧ (stopCoil s).classifier = s.classifier ∧
    (stopCoil s).resetIn = s.resetIn ∧ (stopCoil s).freeDraws = s.freeDraws ∧ (stopCoil s).pending = s.pending := by
  simp [stopCoil]

end Sys2Proof.Machine
end

