-- ==== Sys2Proof/Laws/Coil.lean ====
section
/-! SUPPORT. What the coil job's operations can change. -/

namespace Sys2Proof.Machine

/-- R91. -/
@[simp] theorem examineOverlength_keeps (s : State) :
    (examineOverlength s).ownAddress = s.ownAddress ∧ (examineOverlength s).tables = s.tables ∧
    (examineOverlength s).tally.haulTotal = s.tally.haulTotal ∧
    (examineOverlength s).tally.packedTotal = s.tally.packedTotal ∧
    (examineOverlength s).tally.coil = s.tally.coil ∧ (examineOverlength s).tally.mark = s.tally.mark ∧
    (examineOverlength s).tally.window = s.tally.window ∧
    (examineOverlength s).tally.windowLength = s.tally.windowLength ∧
    (examineOverlength s).tally.cutwait = s.tally.cutwait ∧
    (examineOverlength s).tally.loaded = s.tally.loaded ∧
    (examineOverlength s).tally.haulTaken = s.tally.haulTaken ∧
    (examineOverlength s).tally.shortHaul = s.tally.shortHaul ∧
    (examineOverlength s).tally.clippedHaul = s.tally.clippedHaul ∧ (examineOverlength s).lay = s.lay ∧
    (examineOverlength s).mesh = s.mesh ∧ (examineOverlength s).coil.openCoil.number = s.coil.openCoil.number ∧
    (examineOverlength s).coil.openCoil.productId = s.coil.openCoil.productId ∧
    (examineOverlength s).coil.openCoil.net = s.coil.openCoil.net ∧
    (examineOverlength s).coil.openCoil.state = s.coil.openCoil.state ∧
    (examineOverlength s).coil.openCoil.length = s.coil.openCoil.length ∧
    (examineOverlength s).coil.openCoil.start = s.coil.openCoil.start ∧
    (examineOverlength s).coil.openCoil.rows = s.coil.openCoil.rows ∧
    (examineOverlength s).coil.openCoil.worstDeviation = s.coil.openCoil.worstDeviation ∧
    (examineOverlength s).coil.openCoil.driftWindows = s.coil.openCoil.driftWindows ∧
    (examineOverlength s).coil.openCoil.grade = s.coil.openCoil.grade ∧
    (examineOverlength s).coil.openCoil.cutLag = s.coil.openCoil.cutLag ∧
    (examineOverlength s).coil.openCoil.overdue = s.coil.openCoil.overdue ∧
    (examineOverlength s).coil.queue = s.coil.queue ∧ (examineOverlength s).coil.counter = s.coil.counter ∧
    (examineOverlength s).coil.current = s.coil.current ∧ (examineOverlength s).coil.next = s.coil.next ∧
    (examineOverlength s).coil.pendingTake = s.coil.pendingTake ∧
    (examineOverlength s).coil.rejectedFrames = s.coil.rejectedFrames ∧
    (examineOverlength s).coil.marksMissed = s.coil.marksMissed ∧
    (examineOverlength s).coil.takeOverruns = s.coil.takeOverruns ∧
    (examineOverlength s).coil.nacksNotSent = s.coil.nacksNotSent ∧
    (examineOverlength s).coil.refusedChangeovers = s.coil.refusedChangeovers ∧
    (examineOverlength s).portU = s.portU ∧ (examineOverlength s).portD = s.portD ∧
    (examineOverlength s).store.fqd = s.store.fqd ∧ (examineOverlength s).store.fqu = s.store.fqu ∧
    (examineOverlength s).store.iqd = s.store.iqd ∧
    (examineOverlength s).store.latchInFlight = s.store.latchInFlight ∧
    (examineOverlength s).store.hold = s.store.hold ∧ (examineOverlength s).store.arriving = s.store.arriving ∧
    (examineOverlength s).store.reserved = s.store.reserved ∧ (examineOverlength s).holdOut = s.holdOut ∧
    (examineOverlength s).classifier = s.classifier ∧ (examineOverlength s).resetIn = s.resetIn ∧
    (examineOverlength s).freeDraws = s.freeDraws ∧ (examineOverlength s).pending = s.pending := by
  unfold examineOverlength
  try dsimp only
  repeat' split
  all_goals simp

/-- The open coil's state alone. -/
@[simp] theorem setOpenState_keeps (st : CoilState) (s : State) :
    (setOpenState st s).mode = s.mode ∧ (setOpenState st s).ownAddress = s.ownAddress ∧
    (setOpenState st s).tables = s.tables ∧ (setOpenState st s).tally = s.tally ∧
    (setOpenState st s).lay = s.lay ∧ (setOpenState st s).mesh = s.mesh ∧
    (setOpenState st s).coil.openCoil.number = s.coil.openCoil.number ∧
    (setOpenState st s).coil.openCoil.productId = s.coil.openCoil.productId ∧
    (setOpenState st s).coil.openCoil.net = s.coil.openCoil.net ∧
    (setOpenState st s).coil.openCoil.length = s.coil.openCoil.length ∧
    (setOpenState st s).coil.openCoil.start = s.coil.openCoil.start ∧
    (setOpenState st s).coil.openCoil.rows = s.coil.openCoil.rows ∧
    (setOpenState st s).coil.openCoil.worstDeviation = s.coil.openCoil.worstDeviation ∧
    (setOpenState st s).coil.openCoil.driftWindows = s.coil.openCoil.driftWindows ∧
    (setOpenState st s).coil.openCoil.defects = s.coil.openCoil.defects ∧
    (setOpenState st s).coil.openCoil.overflow = s.coil.openCoil.overflow ∧
    (setOpenState st s).coil.openCoil.overflowPoints = s.coil.openCoil.overflowPoints ∧
    (setOpenState st s).coil.openCoil.points = s.coil.openCoil.points ∧
    (setOpenState st s).coil.openCoil.grade = s.coil.openCoil.grade ∧
    (setOpenState st s).coil.openCoil.cutLag = s.coil.openCoil.cutLag ∧
    (setOpenState st s).coil.openCoil.overdue = s.coil.openCoil.overdue ∧
    (setOpenState st s).coil.openCoil.overlengthNoted = s.coil.openCoil.overlengthNoted ∧
    (setOpenState st s).coil.queue = s.coil.queue ∧ (setOpenState st s).coil.counter = s.coil.counter ∧
    (setOpenState st s).coil.current = s.coil.current ∧ (setOpenState st s).coil.next = s.coil.next ∧
    (setOpenState st s).coil.pendingTake = s.coil.pendingTake ∧
    (setOpenState st s).coil.rejectedFrames = s.coil.rejectedFrames ∧
    (setOpenState st s).coil.marksMissed = s.coil.marksMissed ∧
    (setOpenState st s).coil.takeOverruns = s.coil.takeOverruns ∧
    (setOpenState st s).coil.nacksNotSent = s.coil.nacksNotSent ∧
    (setOpenState st s).coil.refusedChangeovers = s.coil.refusedChangeovers ∧
    (setOpenState st s).faults = s.faults ∧ (setOpenState st s).portU = s.portU ∧
    (setOpenState st s).portD = s.portD ∧ (setOpenState st s).store = s.store ∧
    (setOpenState st s).holdOut = s.holdOut ∧ (setOpenState st s).classifier = s.classifier ∧
    (setOpenState st s).resetIn = s.resetIn ∧ (setOpenState st s).freeDraws = s.freeDraws ∧
    (setOpenState st s).pending = s.pending := by
  repeat' apply And.intro
  all_goals rfl

/-- R94 step 3. -/
@[simp] theorem sendCutreq_keeps (s : State) :
    (sendCutreq s).mode = s.mode ∧ (sendCutreq s).ownAddress = s.ownAddress ∧ (sendCutreq s).tables = s.tables ∧
    (sendCutreq s).tally = s.tally ∧ (sendCutreq s).lay = s.lay ∧ (sendCutreq s).mesh = s.mesh ∧
    (sendCutreq s).coil.openCoil.number = s.coil.openCoil.number ∧
    (sendCutreq s).coil.openCoil.productId = s.coil.openCoil.productId ∧
    (sendCutreq s).coil.openCoil.net = s.coil.openCoil.net ∧
    (sendCutreq s).coil.openCoil.length = s.coil.openCoil.length ∧
    (sendCutreq s).coil.openCoil.start = s.coil.openCoil.start ∧
    (sendCutreq s).coil.openCoil.rows = s.coil.openCoil.rows ∧
    (sendCutreq s).coil.openCoil.worstDeviation = s.coil.openCoil.worstDeviation ∧
    (sendCutreq s).coil.openCoil.driftWindows = s.coil.openCoil.driftWindows ∧
    (sendCutreq s).coil.openCoil.defects = s.coil.openCoil.defects ∧
    (sendCutreq s).coil.openCoil.overflow = s.coil.openCoil.overflow ∧
    (sendCutreq s).coil.openCoil.overflowPoints = s.coil.openCoil.overflowPoints ∧
    (sendCutreq s).coil.openCoil.points = s.coil.openCoil.points ∧
    (sendCutreq s).coil.openCoil.grade = s.coil.openCoil.grade ∧
    (sendCutreq s).coil.openCoil.cutLag = s.coil.openCoil.cutLag ∧
    (sendCutreq s).coil.openCoil.overdue = s.coil.openCoil.overdue ∧
    (sendCutreq s).coil.openCoil.overlengthNoted = s.coil.openCoil.overlengthNoted ∧
    (sendCutreq s).coil.queue = s.coil.queue ∧ (sendCutreq s).coil.counter = s.coil.counter ∧
    (sendCutreq s).coil.current = s.coil.current ∧ (sendCutreq s).coil.next = s.coil.next ∧
    (sendCutreq s).coil.pendingTake = s.coil.pendingTake ∧
    (sendCutreq s).coil.rejectedFrames = s.coil.rejectedFrames ∧
    (sendCutreq s).coil.marksMissed = s.coil.marksMissed ∧
    (sendCutreq s).coil.takeOverruns = s.coil.takeOverruns ∧
    (sendCutreq s).coil.nacksNotSent = s.coil.nacksNotSent ∧
    (sendCutreq s).coil.refusedChangeovers = s.coil.refusedChangeovers ∧ (sendCutreq s).faults = s.faults ∧
    (sendCutreq s).portU = s.portU ∧ (sendCutreq s).portD = s.portD ∧ (sendCutreq s).store.fqd = s.store.fqd ∧
    (sendCutreq s).store.fqu = s.store.fqu ∧ (sendCutreq s).store.iqu = s.store.iqu ∧
    (sendCutreq s).store.latchPending = s.store.latchPending ∧
    (sendCutreq s).store.latchInFlight = s.store.latchInFlight ∧ (sendCutreq s).store.hold = s.store.hold ∧
    (sendCutreq s).store.arriving = s.store.arriving ∧ (sendCutreq s).store.reserved = s.store.reserved ∧
    (sendCutreq s).holdOut = s.holdOut ∧ (sendCutreq s).classifier = s.classifier ∧
    (sendCutreq s).resetIn = s.resetIn ∧ (sendCutreq s).freeDraws = s.freeDraws ∧
    (sendCutreq s).pending = s.pending := by
  simp [sendCutreq]

/-- R94, R95. -/
@[simp] theorem cutWithRoom_keeps (s : State) :
    (cutWithRoom s).mode = s.mode ∧ (cutWithRoom s).ownAddress = s.ownAddress ∧
    (cutWithRoom s).tables = s.tables ∧ (cutWithRoom s).tally = s.tally ∧ (cutWithRoom s).lay = s.lay ∧
    (cutWithRoom s).mesh = s.mesh ∧ (cutWithRoom s).coil.openCoil.number = s.coil.openCoil.number ∧
    (cutWithRoom s).coil.openCoil.productId = s.coil.openCoil.productId ∧
    (cutWithRoom s).coil.openCoil.net = s.coil.openCoil.net ∧
    (cutWithRoom s).coil.openCoil.length = s.coil.openCoil.length ∧
    (cutWithRoom s).coil.openCoil.start = s.coil.openCoil.start ∧
    (cutWithRoom s).coil.openCoil.rows = s.coil.openCoil.rows ∧
    (cutWithRoom s).coil.openCoil.worstDeviation = s.coil.openCoil.worstDeviation ∧
    (cutWithRoom s).coil.openCoil.driftWindows = s.coil.openCoil.driftWindows ∧
    (cutWithRoom s).coil.openCoil.defects = s.coil.openCoil.defects ∧
    (cutWithRoom s).coil.openCoil.overflow = s.coil.openCoil.overflow ∧
    (cutWithRoom s).coil.openCoil.overflowPoints = s.coil.openCoil.overflowPoints ∧
    (cutWithRoom s).coil.openCoil.points = s.coil.openCoil.points ∧
    (cutWithRoom s).coil.openCoil.grade = s.coil.openCoil.grade ∧
    (cutWithRoom s).coil.openCoil.cutLag = s.coil.openCoil.cutLag ∧
    (cutWithRoom s).coil.openCoil.overdue = s.coil.openCoil.overdue ∧
    (cutWithRoom s).coil.openCoil.overlengthNoted = s.coil.openCoil.overlengthNoted ∧
    (cutWithRoom s).coil.queue = s.coil.queue ∧ (cutWithRoom s).coil.counter = s.coil.counter ∧
    (cutWithRoom s).coil.current = s.coil.current ∧ (cutWithRoom s).coil.next = s.coil.next ∧
    (cutWithRoom s).coil.pendingTake = s.coil.pendingTake ∧
    (cutWithRoom s).coil.rejectedFrames = s.coil.rejectedFrames ∧
    (cutWithRoom s).coil.marksMissed = s.coil.marksMissed ∧
    (cutWithRoom s).coil.takeOverruns = s.coil.takeOverruns ∧
    (cutWithRoom s).coil.nacksNotSent = s.coil.nacksNotSent ∧
    (cutWithRoom s).coil.refusedChangeovers = s.coil.refusedChangeovers ∧ (cutWithRoom s).faults = s.faults ∧
    (cutWithRoom s).portU = s.portU ∧ (cutWithRoom s).portD = s.portD ∧
    (cutWithRoom s).store.fqd = s.store.fqd ∧ (cutWithRoom s).store.fqu = s.store.fqu ∧
    (cutWithRoom s).store.iqu = s.store.iqu ∧ (cutWithRoom s).store.latchPending = s.store.latchPending ∧
    (cutWithRoom s).store.latchInFlight = s.store.latchInFlight ∧ (cutWithRoom s).store.hold = s.store.hold ∧
    (cutWithRoom s).store.arriving = s.store.arriving ∧ (cutWithRoom s).store.reserved = s.store.reserved ∧
    (cutWithRoom s).holdOut = s.holdOut ∧ (cutWithRoom s).classifier = s.classifier ∧
    (cutWithRoom s).resetIn = s.resetIn ∧ (cutWithRoom s).freeDraws = s.freeDraws ∧
    (cutWithRoom s).pending = s.pending := by
  unfold cutWithRoom
  try dsimp only
  repeat' split
  all_goals simp

/-- R94. -/
@[simp] theorem cutRequest_keeps (s : State) :
    (cutRequest s).ownAddress = s.ownAddress ∧ (cutRequest s).tables = s.tables ∧
    (cutRequest s).tally.haulTotal = s.tally.haulTotal ∧
    (cutRequest s).tally.packedTotal = s.tally.packedTotal ∧ (cutRequest s).tally.coil = s.tally.coil ∧
    (cutRequest s).tally.mark = s.tally.mark ∧ (cutRequest s).tally.window = s.tally.window ∧
    (cutRequest s).tally.windowLength = s.tally.windowLength ∧ (cutRequest s).tally.cutwait = s.tally.cutwait ∧
    (cutRequest s).tally.loaded = s.tally.loaded ∧ (cutRequest s).tally.haulTaken = s.tally.haulTaken ∧
    (cutRequest s).tally.shortHaul = s.tally.shortHaul ∧
    (cutRequest s).tally.clippedHaul = s.tally.clippedHaul ∧ (cutRequest s).lay = s.lay ∧
    (cutRequest s).mesh = s.mesh ∧ (cutRequest s).coil.openCoil.number = s.coil.openCoil.number ∧
    (cutRequest s).coil.openCoil.productId = s.coil.openCoil.productId ∧
    (cutRequest s).coil.openCoil.net = s.coil.openCoil.net ∧
    (cutRequest s).coil.openCoil.length = s.coil.openCoil.length ∧
    (cutRequest s).coil.openCoil.start = s.coil.openCoil.start ∧
    (cutRequest s).coil.openCoil.rows = s.coil.openCoil.rows ∧
    (cutRequest s).coil.openCoil.worstDeviation = s.coil.openCoil.worstDeviation ∧
    (cutRequest s).coil.openCoil.driftWindows = s.coil.openCoil.driftWindows ∧
    (cutRequest s).coil.openCoil.grade = s.coil.openCoil.grade ∧
    (cutRequest s).coil.openCoil.cutLag = s.coil.openCoil.cutLag ∧
    (cutRequest s).coil.openCoil.overdue = s.coil.openCoil.overdue ∧
    (cutRequest s).coil.openCoil.overlengthNoted = s.coil.openCoil.overlengthNoted ∧
    (cutRequest s).coil.queue = s.coil.queue ∧ (cutRequest s).coil.counter = s.coil.counter ∧
    (cutRequest s).coil.current = s.coil.current ∧ (cutRequest s).coil.next = s.coil.next ∧
    (cutRequest s).coil.pendingTake = s.coil.pendingTake ∧
    (cutRequest s).coil.rejectedFrames = s.coil.rejectedFrames ∧
    (cutRequest s).coil.marksMissed = s.coil.marksMissed ∧
    (cutRequest s).coil.takeOverruns = s.coil.takeOverruns ∧
    (cutRequest s).coil.nacksNotSent = s.coil.nacksNotSent ∧
    (cutRequest s).coil.refusedChangeovers = s.coil.refusedChangeovers ∧ (cutRequest s).portU = s.portU ∧
    (cutRequest s).portD = s.portD ∧ (cutRequest s).store.fqd = s.store.fqd ∧
    (cutRequest s).store.fqu = s.store.fqu ∧ (cutRequest s).store.latchInFlight = s.store.latchInFlight ∧
    (cutRequest s).store.hold = s.store.hold ∧ (cutRequest s).store.arriving = s.store.arriving ∧
    (cutRequest s).store.reserved = s.store.reserved ∧ (cutRequest s).holdOut = s.holdOut ∧
    (cutRequest s).classifier = s.classifier ∧ (cutRequest s).resetIn = s.resetIn ∧
    (cutRequest s).freeDraws = s.freeDraws ∧ (cutRequest s).pending = s.pending := by
  unfold cutRequest
  try dsimp only
  repeat' split
  all_goals simp

/-- R92. -/
@[simp] theorem coilUnderflowed_keeps (lag : Nat) (s : State) :
    (coilUnderflowed lag s).ownAddress = s.ownAddress ∧ (coilUnderflowed lag s).tables = s.tables ∧
    (coilUnderflowed lag s).tally.haulTotal = s.tally.haulTotal ∧
    (coilUnderflowed lag s).tally.packedTotal = s.tally.packedTotal ∧
    (coilUnderflowed lag s).tally.coil = s.tally.coil ∧ (coilUnderflowed lag s).tally.mark = s.tally.mark ∧
    (coilUnderflowed lag s).tally.window = s.tally.window ∧
    (coilUnderflowed lag s).tally.windowLength = s.tally.windowLength ∧
    (coilUnderflowed lag s).tally.cutwait = s.tally.cutwait ∧
    (coilUnderflowed lag s).tally.loaded = s.tally.loaded ∧
    (coilUnderflowed lag s).tally.haulTaken = s.tally.haulTaken ∧
    (coilUnderflowed lag s).tally.shortHaul = s.tally.shortHaul ∧
    (coilUnderflowed lag s).tally.clippedHaul = s.tally.clippedHaul ∧ (coilUnderflowed lag s).lay = s.lay ∧
    (coilUnderflowed lag s).mesh = s.mesh ∧
    (coilUnderflowed lag s).coil.openCoil.number = s.coil.openCoil.number ∧
    (coilUnderflowed lag s).coil.openCoil.productId = s.coil.openCoil.productId ∧
    (coilUnderflowed lag s).coil.openCoil.net = s.coil.openCoil.net ∧
    (coilUnderflowed lag s).coil.openCoil.length = s.coil.openCoil.length ∧
    (coilUnderflowed lag s).coil.openCoil.start = s.coil.openCoil.start ∧
    (coilUnderflowed lag s).coil.openCoil.rows = s.coil.openCoil.rows ∧
    (coilUnderflowed lag s).coil.openCoil.worstDeviation = s.coil.openCoil.worstDeviation ∧
    (coilUnderflowed lag s).coil.openCoil.driftWindows = s.coil.openCoil.driftWindows ∧
    (coilUnderflowed lag s).coil.openCoil.grade = s.coil.openCoil.grade ∧
    (coilUnderflowed lag s).coil.openCoil.overdue = s.coil.openCoil.overdue ∧
    (coilUnderflowed lag s).coil.openCoil.overlengthNoted = s.coil.openCoil.overlengthNoted ∧
    (coilUnderflowed lag s).coil.queue = s.coil.queue ∧ (coilUnderflowed lag s).coil.counter = s.coil.counter ∧
    (coilUnderflowed lag s).coil.current = s.coil.current ∧ (coilUnderflowed lag s).coil.next = s.coil.next ∧
    (coilUnderflowed lag s).coil.pendingTake = s.coil.pendingTake ∧
    (coilUnderflowed lag s).coil.rejectedFrames = s.coil.rejectedFrames ∧
    (coilUnderflowed lag s).coil.marksMissed = s.coil.marksMissed ∧
    (coilUnderflowed lag s).coil.takeOverruns = s.coil.takeOverruns ∧
    (coilUnderflowed lag s).coil.nacksNotSent = s.coil.nacksNotSent ∧
    (coilUnderflowed lag s).coil.refusedChangeovers = s.coil.refusedChangeovers ∧
    (coilUnderflowed lag s).portU = s.portU ∧ (coilUnderflowed lag s).portD = s.portD ∧
    (coilUnderflowed lag s).store.fqd = s.store.fqd ∧ (coilUnderflowed lag s).store.fqu = s.store.fqu ∧
    (coilUnderflowed lag s).store.latchInFlight = s.store.latchInFlight ∧
    (coilUnderflowed lag s).store.hold = s.store.hold ∧
    (coilUnderflowed lag s).store.arriving = s.store.arriving ∧
    (coilUnderflowed lag s).store.reserved = s.store.reserved ∧ (coilUnderflowed lag s).holdOut = s.holdOut ∧
    (coilUnderflowed lag s).classifier = s.classifier ∧ (coilUnderflowed lag s).resetIn = s.resetIn ∧
    (coilUnderflowed lag s).freeDraws = s.freeDraws ∧ (coilUnderflowed lag s).pending = s.pending := by
  unfold coilUnderflowed
  try dsimp only
  repeat' split
  all_goals simp

/-- R26. -/
@[simp] theorem handImmediate_keeps (s : State) :
    (handImmediate s).ownAddress = s.ownAddress ∧ (handImmediate s).tables = s.tables ∧
    (handImmediate s).tally.haulTotal = s.tally.haulTotal ∧
    (handImmediate s).tally.packedTotal = s.tally.packedTotal ∧ (handImmediate s).tally.coil = s.tally.coil ∧
    (handImmediate s).tally.mark = s.tally.mark ∧ (handImmediate s).tally.window = s.tally.window ∧
    (handImmediate s).tally.windowLength = s.tally.windowLength ∧
    (handImmediate s).tally.cutwait = s.tally.cutwait ∧ (handImmediate s).tally.loaded = s.tally.loaded ∧
    (handImmediate s).tally.haulTaken = s.tally.haulTaken ∧
    (handImmediate s).tally.shortHaul = s.tally.shortHaul ∧
    (handImmediate s).tally.clippedHaul = s.tally.clippedHaul ∧ (handImmediate s).lay = s.lay ∧
    (handImmediate s).mesh = s.mesh ∧ (handImmediate s).coil.openCoil.number = s.coil.openCoil.number ∧
    (handImmediate s).coil.openCoil.productId = s.coil.openCoil.productId ∧
    (handImmediate s).coil.openCoil.net = s.coil.openCoil.net ∧
    (handImmediate s).coil.openCoil.length = s.coil.openCoil.length ∧
    (handImmediate s).coil.openCoil.start = s.coil.openCoil.start ∧
    (handImmediate s).coil.openCoil.rows = s.coil.openCoil.rows ∧
    (handImmediate s).coil.openCoil.worstDeviation = s.coil.openCoil.worstDeviation ∧
    (handImmediate s).coil.openCoil.driftWindows = s.coil.openCoil.driftWindows ∧
    (handImmediate s).coil.openCoil.grade = s.coil.openCoil.grade ∧
    (handImmediate s).coil.openCoil.overdue = s.coil.openCoil.overdue ∧
    (handImmediate s).coil.openCoil.overlengthNoted = s.coil.openCoil.overlengthNoted ∧
    (handImmediate s).coil.queue = s.coil.queue ∧ (handImmediate s).coil.counter = s.coil.counter ∧
    (handImmediate s).coil.current = s.coil.current ∧ (handImmediate s).coil.next = s.coil.next ∧
    (handImmediate s).coil.pendingTake = s.coil.pendingTake ∧
    (handImmediate s).coil.rejectedFrames = s.coil.rejectedFrames ∧
    (handImmediate s).coil.marksMissed = s.coil.marksMissed ∧
    (handImmediate s).coil.takeOverruns = s.coil.takeOverruns ∧
    (handImmediate s).coil.nacksNotSent = s.coil.nacksNotSent ∧
    (handImmediate s).coil.refusedChangeovers = s.coil.refusedChangeovers ∧ (handImmediate s).portU = s.portU ∧
    (handImmediate s).portD = s.portD ∧ (handImmediate s).store.fqd = s.store.fqd ∧
    (handImmediate s).store.fqu = s.store.fqu ∧ (handImmediate s).store.latchInFlight = s.store.latchInFlight ∧
    (handImmediate s).store.hold = s.store.hold ∧ (handImmediate s).store.arriving = s.store.arriving ∧
    (handImmediate s).store.reserved = s.store.reserved ∧ (handImmediate s).holdOut = s.holdOut ∧
    (handImmediate s).classifier = s.classifier ∧ (handImmediate s).resetIn = s.resetIn ∧
    (handImmediate s).freeDraws = s.freeDraws ∧ (handImmediate s).pending = s.pending := by
  unfold handImmediate
  try dsimp only
  repeat' split
  all_goals simp

/-- R93. -/
@[simp] theorem manualCut_keeps (s : State) :
    (manualCut s).ownAddress = s.ownAddress ∧ (manualCut s).tables = s.tables ∧
    (manualCut s).tally.haulTotal = s.tally.haulTotal ∧ (manualCut s).tally.packedTotal = s.tally.packedTotal ∧
    (manualCut s).tally.mark = s.tally.mark ∧ (manualCut s).tally.window = s.tally.window ∧
    (manualCut s).tally.windowLength = s.tally.windowLength ∧ (manualCut s).tally.cutwait = s.tally.cutwait ∧
    (manualCut s).tally.loaded = s.tally.loaded ∧ (manualCut s).tally.haulTaken = s.tally.haulTaken ∧
    (manualCut s).tally.shortHaul = s.tally.shortHaul ∧ (manualCut s).tally.clippedHaul = s.tally.clippedHaul ∧
    (manualCut s).lay = s.lay ∧ (manualCut s).mesh = s.mesh ∧
    (manualCut s).coil.openCoil.number = s.coil.openCoil.number ∧
    (manualCut s).coil.openCoil.productId = s.coil.openCoil.productId ∧
    (manualCut s).coil.openCoil.net = s.coil.openCoil.net ∧
    (manualCut s).coil.openCoil.length = s.coil.openCoil.length ∧
    (manualCut s).coil.openCoil.start = s.coil.openCoil.start ∧
    (manualCut s).coil.openCoil.rows = s.coil.openCoil.rows ∧
    (manualCut s).coil.openCoil.worstDeviation = s.coil.openCoil.worstDeviation ∧
    (manualCut s).coil.openCoil.driftWindows = s.coil.openCoil.driftWindows ∧
    (manualCut s).coil.openCoil.grade = s.coil.openCoil.grade ∧
    (manualCut s).coil.openCoil.overdue = s.coil.openCoil.overdue ∧
    (manualCut s).coil.openCoil.overlengthNoted = s.coil.openCoil.overlengthNoted ∧
    (manualCut s).coil.queue = s.coil.queue ∧ (manualCut s).coil.counter = s.coil.counter ∧
    (manualCut s).coil.current = s.coil.current ∧ (manualCut s).coil.next = s.coil.next ∧
    (manualCut s).coil.pendingTake = s.coil.pendingTake ∧
    (manualCut s).coil.rejectedFrames = s.coil.rejectedFrames ∧
    (manualCut s).coil.marksMissed = s.coil.marksMissed ∧
    (manualCut s).coil.takeOverruns = s.coil.takeOverruns ∧
    (manualCut s).coil.nacksNotSent = s.coil.nacksNotSent ∧
    (manualCut s).coil.refusedChangeovers = s.coil.refusedChangeovers ∧ (manualCut s).portU = s.portU ∧
    (manualCut s).portD = s.portD ∧ (manualCut s).store.fqd = s.store.fqd ∧
    (manualCut s).store.fqu = s.store.fqu ∧ (manualCut s).store.latchInFlight = s.store.latchInFlight ∧
    (manualCut s).store.hold = s.store.hold ∧ (manualCut s).store.arriving = s.store.arriving ∧
    (manualCut s).store.reserved = s.store.reserved ∧ (manualCut s).holdOut = s.holdOut ∧
    (manualCut s).classifier = s.classifier ∧ (manualCut s).resetIn = s.resetIn ∧
    (manualCut s).freeDraws = s.freeDraws ∧ (manualCut s).pending = s.pending := by
  simp [manualCut]

/-- R102. -/
@[simp] theorem sendLabel_keeps (s : State) :
    (sendLabel s).mode = s.mode ∧ (sendLabel s).ownAddress = s.ownAddress ∧ (sendLabel s).tables = s.tables ∧
    (sendLabel s).tally = s.tally ∧ (sendLabel s).lay = s.lay ∧ (sendLabel s).mesh = s.mesh ∧
    (sendLabel s).coil.openCoil = s.coil.openCoil ∧ (sendLabel s).coil.counter = s.coil.counter ∧
    (sendLabel s).coil.current = s.coil.current ∧ (sendLabel s).coil.next = s.coil.next ∧
    (sendLabel s).coil.pendingTake = s.coil.pendingTake ∧
    (sendLabel s).coil.rejectedFrames = s.coil.rejectedFrames ∧
    (sendLabel s).coil.marksMissed = s.coil.marksMissed ∧
    (sendLabel s).coil.takeOverruns = s.coil.takeOverruns ∧
    (sendLabel s).coil.nacksNotSent = s.coil.nacksNotSent ∧
    (sendLabel s).coil.refusedChangeovers = s.coil.refusedChangeovers ∧ (sendLabel s).faults = s.faults ∧
    (sendLabel s).portU = s.portU ∧ (sendLabel s).portD = s.portD ∧ (sendLabel s).store.fqd = s.store.fqd ∧
    (sendLabel s).store.fqu = s.store.fqu ∧ (sendLabel s).store.iqu = s.store.iqu ∧
    (sendLabel s).store.latchPending = s.store.latchPending ∧
    (sendLabel s).store.latchInFlight = s.store.latchInFlight ∧ (sendLabel s).store.hold = s.store.hold ∧
    (sendLabel s).store.arriving = s.store.arriving ∧ (sendLabel s).store.reserved = s.store.reserved ∧
    (sendLabel s).holdOut = s.holdOut ∧ (sendLabel s).classifier = s.classifier ∧
    (sendLabel s).resetIn = s.resetIn ∧ (sendLabel s).freeDraws = s.freeDraws ∧
    (sendLabel s).pending = s.pending := by
  simp [sendLabel]

/-- R103. -/
@[simp] theorem servePending_keeps (s : State) :
    (servePending s).mode = s.mode ∧ (servePending s).ownAddress = s.ownAddress ∧
    (servePending s).tables = s.tables ∧ (servePending s).tally = s.tally ∧ (servePending s).lay = s.lay ∧
    (servePending s).mesh = s.mesh ∧ (servePending s).coil.openCoil = s.coil.openCoil ∧
    (servePending s).coil.counter = s.coil.counter ∧ (servePending s).coil.current = s.coil.current ∧
    (servePending s).coil.next = s.coil.next ∧ (servePending s).coil.rejectedFrames = s.coil.rejectedFrames ∧
    (servePending s).coil.marksMissed = s.coil.marksMissed ∧
    (servePending s).coil.takeOverruns = s.coil.takeOverruns ∧
    (servePending s).coil.nacksNotSent = s.coil.nacksNotSent ∧
    (servePending s).coil.refusedChangeovers = s.coil.refusedChangeovers ∧ (servePending s).faults = s.faults ∧
    (servePending s).portU = s.portU ∧ (servePending s).portD = s.portD ∧
    (servePending s).store.fqd = s.store.fqd ∧ (servePending s).store.fqu = s.store.fqu ∧
    (servePending s).store.iqu = s.store.iqu ∧ (servePending s).store.latchPending = s.store.latchPending ∧
    (servePending s).store.latchInFlight = s.store.latchInFlight ∧ (servePending s).store.hold = s.store.hold ∧
    (servePending s).store.arriving = s.store.arriving ∧ (servePending s).store.reserved = s.store.reserved ∧
    (servePending s).holdOut = s.holdOut ∧ (servePending s).classifier = s.classifier ∧
    (servePending s).resetIn = s.resetIn ∧ (servePending s).freeDraws = s.freeDraws ∧
    (servePending s).pending = s.pending := by
  unfold servePending
  try dsimp only
  repeat' split
  all_goals simp

/-- R102. -/
@[simp] theorem takeReceived_keeps (s : State) :
    (takeReceived s).mode = s.mode ∧ (takeReceived s).ownAddress = s.ownAddress ∧
    (takeReceived s).tables = s.tables ∧ (takeReceived s).tally = s.tally ∧ (takeReceived s).lay = s.lay ∧
    (takeReceived s).mesh = s.mesh ∧ (takeReceived s).coil.openCoil = s.coil.openCoil ∧
    (takeReceived s).coil.counter = s.coil.counter ∧ (takeReceived s).coil.current = s.coil.current ∧
    (takeReceived s).coil.next = s.coil.next ∧ (takeReceived s).coil.rejectedFrames = s.coil.rejectedFrames ∧
    (takeReceived s).coil.marksMissed = s.coil.marksMissed ∧
    (takeReceived s).coil.nacksNotSent = s.coil.nacksNotSent ∧
    (takeReceived s).coil.refusedChangeovers = s.coil.refusedChangeovers ∧ (takeReceived s).faults = s.faults ∧
    (takeReceived s).portU = s.portU ∧ (takeReceived s).portD = s.portD ∧
    (takeReceived s).store.fqd = s.store.fqd ∧ (takeReceived s).store.fqu = s.store.fqu ∧
    (takeReceived s).store.iqu = s.store.iqu ∧ (takeReceived s).store.latchPending = s.store.latchPending ∧
    (takeReceived s).store.latchInFlight = s.store.latchInFlight ∧ (takeReceived s).store.hold = s.store.hold ∧
    (takeReceived s).store.arriving = s.store.arriving ∧ (takeReceived s).store.reserved = s.store.reserved ∧
    (takeReceived s).holdOut = s.holdOut ∧ (takeReceived s).classifier = s.classifier ∧
    (takeReceived s).resetIn = s.resetIn ∧ (takeReceived s).freeDraws = s.freeDraws ∧
    (takeReceived s).pending = s.pending := by
  unfold takeReceived
  try dsimp only
  repeat' split
  all_goals simp

/-- R96. -/
@[simp] theorem iqdDeparted_keeps (s : State) :
    (iqdDeparted s).mode = s.mode ∧ (iqdDeparted s).ownAddress = s.ownAddress ∧
    (iqdDeparted s).tables = s.tables ∧ (iqdDeparted s).tally = s.tally ∧ (iqdDeparted s).lay = s.lay ∧
    (iqdDeparted s).mesh = s.mesh ∧ (iqdDeparted s).coil.openCoil.number = s.coil.openCoil.number ∧
    (iqdDeparted s).coil.openCoil.productId = s.coil.openCoil.productId ∧
    (iqdDeparted s).coil.openCoil.net = s.coil.openCoil.net ∧
    (iqdDeparted s).coil.openCoil.length = s.coil.openCoil.length ∧
    (iqdDeparted s).coil.openCoil.start = s.coil.openCoil.start ∧
    (iqdDeparted s).coil.openCoil.rows = s.coil.openCoil.rows ∧
    (iqdDeparted s).coil.openCoil.worstDeviation = s.coil.openCoil.worstDeviation ∧
    (iqdDeparted s).coil.openCoil.driftWindows = s.coil.openCoil.driftWindows ∧
    (iqdDeparted s).coil.openCoil.defects = s.coil.openCoil.defects ∧
    (iqdDeparted s).coil.openCoil.overflow = s.coil.openCoil.overflow ∧
    (iqdDeparted s).coil.openCoil.overflowPoints = s.coil.openCoil.overflowPoints ∧
    (iqdDeparted s).coil.openCoil.points = s.coil.openCoil.points ∧
    (iqdDeparted s).coil.openCoil.grade = s.coil.openCoil.grade ∧
    (iqdDeparted s).coil.openCoil.cutLag = s.coil.openCoil.cutLag ∧
    (iqdDeparted s).coil.openCoil.overdue = s.coil.openCoil.overdue ∧
    (iqdDeparted s).coil.openCoil.overlengthNoted = s.coil.openCoil.overlengthNoted ∧
    (iqdDeparted s).coil.counter = s.coil.counter ∧ (iqdDeparted s).coil.current = s.coil.current ∧
    (iqdDeparted s).coil.next = s.coil.next ∧ (iqdDeparted s).coil.rejectedFrames = s.coil.rejectedFrames ∧
    (iqdDeparted s).coil.marksMissed = s.coil.marksMissed ∧
    (iqdDeparted s).coil.takeOverruns = s.coil.takeOverruns ∧
    (iqdDeparted s).coil.nacksNotSent = s.coil.nacksNotSent ∧
    (iqdDeparted s).coil.refusedChangeovers = s.coil.refusedChangeovers ∧ (iqdDeparted s).faults = s.faults ∧
    (iqdDeparted s).portU = s.portU ∧ (iqdDeparted s).portD = s.portD ∧
    (iqdDeparted s).store.fqd = s.store.fqd ∧ (iqdDeparted s).store.fqu = s.store.fqu ∧
    (iqdDeparted s).store.iqu = s.store.iqu ∧ (iqdDeparted s).store.latchPending = s.store.latchPending ∧
    (iqdDeparted s).store.latchInFlight = s.store.latchInFlight ∧ (iqdDeparted s).store.hold = s.store.hold ∧
    (iqdDeparted s).store.arriving = s.store.arriving ∧ (iqdDeparted s).store.reserved = s.store.reserved ∧
    (iqdDeparted s).holdOut = s.holdOut ∧ (iqdDeparted s).classifier = s.classifier ∧
    (iqdDeparted s).resetIn = s.resetIn ∧ (iqdDeparted s).freeDraws = s.freeDraws ∧
    (iqdDeparted s).pending = s.pending := by
  unfold iqdDeparted
  try dsimp only
  repeat' split
  all_goals simp

/-- R101. -/
@[simp] theorem markUnderflowed_keeps (n k : Nat) (s : State) :
    (markUnderflowed n k s).mode = s.mode ∧ (markUnderflowed n k s).ownAddress = s.ownAddress ∧
    (markUnderflowed n k s).tables = s.tables ∧ (markUnderflowed n k s).tally = s.tally ∧
    (markUnderflowed n k s).lay = s.lay ∧ (markUnderflowed n k s).mesh = s.mesh ∧
    (markUnderflowed n k s).coil.openCoil = s.coil.openCoil ∧
    (markUnderflowed n k s).coil.queue = s.coil.queue ∧ (markUnderflowed n k s).coil.counter = s.coil.counter ∧
    (markUnderflowed n k s).coil.current = s.coil.current ∧ (markUnderflowed n k s).coil.next = s.coil.next ∧
    (markUnderflowed n k s).coil.pendingTake = s.coil.pendingTake ∧
    (markUnderflowed n k s).coil.rejectedFrames = s.coil.rejectedFrames ∧
    (markUnderflowed n k s).coil.takeOverruns = s.coil.takeOverruns ∧
    (markUnderflowed n k s).coil.nacksNotSent = s.coil.nacksNotSent ∧
    (markUnderflowed n k s).coil.refusedChangeovers = s.coil.refusedChangeovers ∧
    (markUnderflowed n k s).faults = s.faults ∧ (markUnderflowed n k s).portU = s.portU ∧
    (markUnderflowed n k s).portD = s.portD ∧ (markUnderflowed n k s).store.fqd = s.store.fqd ∧
    (markUnderflowed n k s).store.fqu = s.store.fqu ∧ (markUnderflowed n k s).store.iqu = s.store.iqu ∧
    (markUnderflowed n k s).store.latchPending = s.store.latchPending ∧
    (markUnderflowed n k s).store.latchInFlight = s.store.latchInFlight ∧
    (markUnderflowed n k s).store.hold = s.store.hold ∧
    (markUnderflowed n k s).store.arriving = s.store.arriving ∧
    (markUnderflowed n k s).store.reserved = s.store.reserved ∧ (markUnderflowed n k s).holdOut = s.holdOut ∧
    (markUnderflowed n k s).classifier = s.classifier ∧ (markUnderflowed n k s).resetIn = s.resetIn ∧
    (markUnderflowed n k s).freeDraws = s.freeDraws ∧ (markUnderflowed n k s).pending = s.pending := by
  unfold markUnderflowed
  try dsimp only
  repeat' split
  all_goals simp

/-- R95. -/
@[simp] theorem roomMade_keeps (s : State) :
    (roomMade s).ownAddress = s.ownAddress ∧ (roomMade s).tables = s.tables ∧ (roomMade s).tally = s.tally ∧
    (roomMade s).lay = s.lay ∧ (roomMade s).mesh = s.mesh ∧
    (roomMade s).coil.openCoil.number = s.coil.openCoil.number ∧
    (roomMade s).coil.openCoil.productId = s.coil.openCoil.productId ∧
    (roomMade s).coil.openCoil.net = s.coil.openCoil.net ∧
    (roomMade s).coil.openCoil.length = s.coil.openCoil.length ∧
    (roomMade s).coil.openCoil.start = s.coil.openCoil.start ∧
    (roomMade s).coil.openCoil.rows = s.coil.openCoil.rows ∧
    (roomMade s).coil.openCoil.worstDeviation = s.coil.openCoil.worstDeviation ∧
    (roomMade s).coil.openCoil.driftWindows = s.coil.openCoil.driftWindows ∧
    (roomMade s).coil.openCoil.defects = s.coil.openCoil.defects ∧
    (roomMade s).coil.openCoil.overflow = s.coil.openCoil.overflow ∧
    (roomMade s).coil.openCoil.overflowPoints = s.coil.openCoil.overflowPoints ∧
    (roomMade s).coil.openCoil.points = s.coil.openCoil.points ∧
    (roomMade s).coil.openCoil.grade = s.coil.openCoil.grade ∧
    (roomMade s).coil.openCoil.cutLag = s.coil.openCoil.cutLag ∧
    (roomMade s).coil.openCoil.overdue = s.coil.openCoil.overdue ∧
    (roomMade s).coil.openCoil.overlengthNoted = s.coil.openCoil.overlengthNoted ∧
    (roomMade s).coil.queue = s.coil.queue ∧ (roomMade s).coil.counter = s.coil.counter ∧
    (roomMade s).coil.current = s.coil.current ∧ (roomMade s).coil.next = s.coil.next ∧
    (roomMade s).coil.pendingTake = s.coil.pendingTake ∧
    (roomMade s).coil.rejectedFrames = s.coil.rejectedFrames ∧
    (roomMade s).coil.marksMissed = s.coil.marksMissed ∧ (roomMade s).coil.takeOverruns = s.coil.takeOverruns ∧
    (roomMade s).coil.nacksNotSent = s.coil.nacksNotSent ∧
    (roomMade s).coil.refusedChangeovers = s.coil.refusedChangeovers ∧ (roomMade s).faults = s.faults ∧
    (roomMade s).portU = s.portU ∧ (roomMade s).portD = s.portD ∧ (roomMade s).store.fqd = s.store.fqd ∧
    (roomMade s).store.fqu = s.store.fqu ∧ (roomMade s).store.iqu = s.store.iqu ∧
    (roomMade s).store.latchInFlight = s.store.latchInFlight ∧ (roomMade s).store.hold = s.store.hold ∧
    (roomMade s).store.arriving = s.store.arriving ∧ (roomMade s).store.reserved = s.store.reserved ∧
    (roomMade s).holdOut = s.holdOut ∧ (roomMade s).classifier = s.classifier ∧
    (roomMade s).resetIn = s.resetIn ∧ (roomMade s).freeDraws = s.freeDraws ∧ (roomMade s).pending = s.pending := by
  unfold roomMade
  try dsimp only
  repeat' split
  all_goals simp

/-- R104. -/
@[simp] theorem nackPacked_keeps (src : Addr) (reason : Byte) (s : State) :
    (nackPacked src reason s).mode = s.mode ∧ (nackPacked src reason s).ownAddress = s.ownAddress ∧
    (nackPacked src reason s).tables = s.tables ∧ (nackPacked src reason s).tally = s.tally ∧
    (nackPacked src reason s).lay = s.lay ∧ (nackPacked src reason s).mesh = s.mesh ∧
    (nackPacked src reason s).coil.openCoil = s.coil.openCoil ∧
    (nackPacked src reason s).coil.queue = s.coil.queue ∧
    (nackPacked src reason s).coil.counter = s.coil.counter ∧
    (nackPacked src reason s).coil.current = s.coil.current ∧
    (nackPacked src reason s).coil.next = s.coil.next ∧
    (nackPacked src reason s).coil.pendingTake = s.coil.pendingTake ∧
    (nackPacked src reason s).coil.rejectedFrames = s.coil.rejectedFrames ∧
    (nackPacked src reason s).coil.marksMissed = s.coil.marksMissed ∧
    (nackPacked src reason s).coil.takeOverruns = s.coil.takeOverruns ∧
    (nackPacked src reason s).coil.refusedChangeovers = s.coil.refusedChangeovers ∧
    (nackPacked src reason s).faults = s.faults ∧ (nackPacked src reason s).portU = s.portU ∧
    (nackPacked src reason s).portD = s.portD ∧ (nackPacked src reason s).store.fqd = s.store.fqd ∧
    (nackPacked src reason s).store.fqu = s.store.fqu ∧ (nackPacked src reason s).store.iqu = s.store.iqu ∧
    (nackPacked src reason s).store.latchPending = s.store.latchPending ∧
    (nackPacked src reason s).store.latchInFlight = s.store.latchInFlight ∧
    (nackPacked src reason s).store.hold = s.store.hold ∧
    (nackPacked src reason s).store.arriving = s.store.arriving ∧
    (nackPacked src reason s).store.reserved = s.store.reserved ∧
    (nackPacked src reason s).holdOut = s.holdOut ∧ (nackPacked src reason s).classifier = s.classifier ∧
    (nackPacked src reason s).resetIn = s.resetIn ∧ (nackPacked src reason s).freeDraws = s.freeDraws ∧
    (nackPacked src reason s).pending = s.pending := by
  unfold nackPacked
  try dsimp only
  repeat' split
  all_goals simp

/-- R104. -/
@[simp] theorem packOldest_keeps (r : CoilRecord) (s : State) :
    (packOldest r s).ownAddress = s.ownAddress ∧ (packOldest r s).tables = s.tables ∧
    (packOldest r s).tally.haulTotal = s.tally.haulTotal ∧ (packOldest r s).tally.coil = s.tally.coil ∧
    (packOldest r s).tally.mark = s.tally.mark ∧ (packOldest r s).tally.window = s.tally.window ∧
    (packOldest r s).tally.windowLength = s.tally.windowLength ∧
    (packOldest r s).tally.haulwatch = s.tally.haulwatch ∧ (packOldest r s).tally.cutwait = s.tally.cutwait ∧
    (packOldest r s).tally.loaded = s.tally.loaded ∧ (packOldest r s).tally.haulTaken = s.tally.haulTaken ∧
    (packOldest r s).tally.shortHaul = s.tally.shortHaul ∧
    (packOldest r s).tally.clippedHaul = s.tally.clippedHaul ∧ (packOldest r s).lay = s.lay ∧
    (packOldest r s).mesh = s.mesh ∧ (packOldest r s).coil.openCoil.number = s.coil.openCoil.number ∧
    (packOldest r s).coil.openCoil.productId = s.coil.openCoil.productId ∧
    (packOldest r s).coil.openCoil.net = s.coil.openCoil.net ∧
    (packOldest r s).coil.openCoil.length = s.coil.openCoil.length ∧
    (packOldest r s).coil.openCoil.start = s.coil.openCoil.start ∧
    (packOldest r s).coil.openCoil.rows = s.coil.openCoil.rows ∧
    (packOldest r s).coil.openCoil.worstDeviation = s.coil.openCoil.worstDeviation ∧
    (packOldest r s).coil.openCoil.driftWindows = s.coil.openCoil.driftWindows ∧
    (packOldest r s).coil.openCoil.defects = s.coil.openCoil.defects ∧
    (packOldest r s).coil.openCoil.overflow = s.coil.openCoil.overflow ∧
    (packOldest r s).coil.openCoil.overflowPoints = s.coil.openCoil.overflowPoints ∧
    (packOldest r s).coil.openCoil.points = s.coil.openCoil.points ∧
    (packOldest r s).coil.openCoil.grade = s.coil.openCoil.grade ∧
    (packOldest r s).coil.openCoil.cutLag = s.coil.openCoil.cutLag ∧
    (packOldest r s).coil.openCoil.overdue = s.coil.openCoil.overdue ∧
    (packOldest r s).coil.openCoil.overlengthNoted = s.coil.openCoil.overlengthNoted ∧
    (packOldest r s).coil.counter = s.coil.counter ∧ (packOldest r s).coil.current = s.coil.current ∧
    (packOldest r s).coil.next = s.coil.next ∧ (packOldest r s).coil.pendingTake = s.coil.pendingTake ∧
    (packOldest r s).coil.rejectedFrames = s.coil.rejectedFrames ∧
    (packOldest r s).coil.marksMissed = s.coil.marksMissed ∧
    (packOldest r s).coil.takeOverruns = s.coil.takeOverruns ∧
    (packOldest r s).coil.nacksNotSent = s.coil.nacksNotSent ∧
    (packOldest r s).coil.refusedChangeovers = s.coil.refusedChangeovers ∧ (packOldest r s).faults = s.faults ∧
    (packOldest r s).portU = s.portU ∧ (packOldest r s).portD = s.portD ∧
    (packOldest r s).store.fqd = s.store.fqd ∧ (packOldest r s).store.fqu = s.store.fqu ∧
    (packOldest r s).store.iqu = s.store.iqu ∧ (packOldest r s).store.latchInFlight = s.store.latchInFlight ∧
    (packOldest r s).store.hold = s.store.hold ∧ (packOldest r s).store.arriving = s.store.arriving ∧
    (packOldest r s).store.reserved = s.store.reserved ∧ (packOldest r s).holdOut = s.holdOut ∧
    (packOldest r s).classifier = s.classifier ∧ (packOldest r s).resetIn = s.resetIn ∧
    (packOldest r s).freeDraws = s.freeDraws ∧ (packOldest r s).pending = s.pending := by
  simp [packOldest]

/-- R104. -/
@[simp] theorem packedNamed_keeps (src : Addr) (n : Nat) (s : State) :
    (packedNamed src n s).ownAddress = s.ownAddress ∧ (packedNamed src n s).tables = s.tables ∧
    (packedNamed src n s).tally.haulTotal = s.tally.haulTotal ∧
    (packedNamed src n s).tally.coil = s.tally.coil ∧ (packedNamed src n s).tally.mark = s.tally.mark ∧
    (packedNamed src n s).tally.window = s.tally.window ∧
    (packedNamed src n s).tally.windowLength = s.tally.windowLength ∧
    (packedNamed src n s).tally.cutwait = s.tally.cutwait ∧
    (packedNamed src n s).tally.loaded = s.tally.loaded ∧
    (packedNamed src n s).tally.haulTaken = s.tally.haulTaken ∧
    (packedNamed src n s).tally.shortHaul = s.tally.shortHaul ∧
    (packedNamed src n s).tally.clippedHaul = s.tally.clippedHaul ∧ (packedNamed src n s).lay = s.lay ∧
    (packedNamed src n s).mesh = s.mesh ∧ (packedNamed src n s).coil.openCoil.number = s.coil.openCoil.number ∧
    (packedNamed src n s).coil.openCoil.productId = s.coil.openCoil.productId ∧
    (packedNamed src n s).coil.openCoil.net = s.coil.openCoil.net ∧
    (packedNamed src n s).coil.openCoil.length = s.coil.openCoil.length ∧
    (packedNamed src n s).coil.openCoil.start = s.coil.openCoil.start ∧
    (packedNamed src n s).coil.openCoil.rows = s.coil.openCoil.rows ∧
    (packedNamed src n s).coil.openCoil.worstDeviation = s.coil.openCoil.worstDeviation ∧
    (packedNamed src n s).coil.openCoil.driftWindows = s.coil.openCoil.driftWindows ∧
    (packedNamed src n s).coil.openCoil.grade = s.coil.openCoil.grade ∧
    (packedNamed src n s).coil.openCoil.cutLag = s.coil.openCoil.cutLag ∧
    (packedNamed src n s).coil.openCoil.overdue = s.coil.openCoil.overdue ∧
    (packedNamed src n s).coil.openCoil.overlengthNoted = s.coil.openCoil.overlengthNoted ∧
    (packedNamed src n s).coil.counter = s.coil.counter ∧ (packedNamed src n s).coil.current = s.coil.current ∧
    (packedNamed src n s).coil.next = s.coil.next ∧
    (packedNamed src n s).coil.pendingTake = s.coil.pendingTake ∧
    (packedNamed src n s).coil.rejectedFrames = s.coil.rejectedFrames ∧
    (packedNamed src n s).coil.marksMissed = s.coil.marksMissed ∧
    (packedNamed src n s).coil.takeOverruns = s.coil.takeOverruns ∧
    (packedNamed src n s).coil.refusedChangeovers = s.coil.refusedChangeovers ∧
    (packedNamed src n s).portU = s.portU ∧ (packedNamed src n s).portD = s.portD ∧
    (packedNamed src n s).store.fqd = s.store.fqd ∧ (packedNamed src n s).store.fqu = s.store.fqu ∧
    (packedNamed src n s).store.latchInFlight = s.store.latchInFlight ∧
    (packedNamed src n s).store.hold = s.store.hold ∧ (packedNamed src n s).store.arriving = s.store.arriving ∧
    (packedNamed src n s).store.reserved = s.store.reserved ∧ (packedNamed src n s).holdOut = s.holdOut ∧
    (packedNamed src n s).classifier = s.classifier ∧ (packedNamed src n s).resetIn = s.resetIn ∧
    (packedNamed src n s).freeDraws = s.freeDraws ∧ (packedNamed src n s).pending = s.pending := by
  unfold packedNamed
  try dsimp only
  repeat' split
  all_goals simp

/-- R104. -/
@[simp] theorem packedReceived_keeps (src : Addr) (payload : List Byte) (s : State) :
    (packedReceived src payload s).ownAddress = s.ownAddress ∧
    (packedReceived src payload s).tables = s.tables ∧
    (packedReceived src payload s).tally.haulTotal = s.tally.haulTotal ∧
    (packedReceived src payload s).tally.coil = s.tally.coil ∧
    (packedReceived src payload s).tally.mark = s.tally.mark ∧
    (packedReceived src payload s).tally.window = s.tally.window ∧
    (packedReceived src payload s).tally.windowLength = s.tally.windowLength ∧
    (packedReceived src payload s).tally.cutwait = s.tally.cutwait ∧
    (packedReceived src payload s).tally.loaded = s.tally.loaded ∧
    (packedReceived src payload s).tally.haulTaken = s.tally.haulTaken ∧
    (packedReceived src payload s).tally.shortHaul = s.tally.shortHaul ∧
    (packedReceived src payload s).tally.clippedHaul = s.tally.clippedHaul ∧
    (packedReceived src payload s).lay = s.lay ∧ (packedReceived src payload s).mesh = s.mesh ∧
    (packedReceived src payload s).coil.openCoil.number = s.coil.openCoil.number ∧
    (packedReceived src payload s).coil.openCoil.productId = s.coil.openCoil.productId ∧
    (packedReceived src payload s).coil.openCoil.net = s.coil.openCoil.net ∧
    (packedReceived src payload s).coil.openCoil.length = s.coil.openCoil.length ∧
    (packedReceived src payload s).coil.openCoil.start = s.coil.openCoil.start ∧
    (packedReceived src payload s).coil.openCoil.rows = s.coil.openCoil.rows ∧
    (packedReceived src payload s).coil.openCoil.worstDeviation = s.coil.openCoil.worstDeviation ∧
    (packedReceived src payload s).coil.openCoil.driftWindows = s.coil.openCoil.driftWindows ∧
    (packedReceived src payload s).coil.openCoil.grade = s.coil.openCoil.grade ∧
    (packedReceived src payload s).coil.openCoil.cutLag = s.coil.openCoil.cutLag ∧
    (packedReceived src payload s).coil.openCoil.overdue = s.coil.openCoil.overdue ∧
    (packedReceived src payload s).coil.openCoil.overlengthNoted = s.coil.openCoil.overlengthNoted ∧
    (packedReceived src payload s).coil.counter = s.coil.counter ∧
    (packedReceived src payload s).coil.current = s.coil.current ∧
    (packedReceived src payload s).coil.next = s.coil.next ∧
    (packedReceived src payload s).coil.pendingTake = s.coil.pendingTake ∧
    (packedReceived src payload s).coil.marksMissed = s.coil.marksMissed ∧
    (packedReceived src payload s).coil.takeOverruns = s.coil.takeOverruns ∧
    (packedReceived src payload s).coil.refusedChangeovers = s.coil.refusedChangeovers ∧
    (packedReceived src payload s).portU = s.portU ∧ (packedReceived src payload s).portD = s.portD ∧
    (packedReceived src payload s).store.fqd = s.store.fqd ∧
    (packedReceived src payload s).store.fqu = s.store.fqu ∧
    (packedReceived src payload s).store.latchInFlight = s.store.latchInFlight ∧
    (packedReceived src payload s).store.hold = s.store.hold ∧
    (packedReceived src payload s).store.arriving = s.store.arriving ∧
    (packedReceived src payload s).store.reserved = s.store.reserved ∧
    (packedReceived src payload s).holdOut = s.holdOut ∧
    (packedReceived src payload s).classifier = s.classifier ∧
    (packedReceived src payload s).resetIn = s.resetIn ∧
    (packedReceived src payload s).freeDraws = s.freeDraws ∧ (packedReceived src payload s).pending = s.pending := by
  unfold packedReceived
  try dsimp only
  repeat' split
  all_goals simp

/-- R90, R91. -/
@[simp] theorem addLength_keeps (n : Nat) (s : State) :
    (addLength n s).ownAddress = s.ownAddress ∧ (addLength n s).tables = s.tables ∧
    (addLength n s).tally.haulTotal = s.tally.haulTotal ∧
    (addLength n s).tally.packedTotal = s.tally.packedTotal ∧ (addLength n s).tally.coil = s.tally.coil ∧
    (addLength n s).tally.mark = s.tally.mark ∧ (addLength n s).tally.window = s.tally.window ∧
    (addLength n s).tally.windowLength = s.tally.windowLength ∧
    (addLength n s).tally.cutwait = s.tally.cutwait ∧ (addLength n s).tally.loaded = s.tally.loaded ∧
    (addLength n s).tally.haulTaken = s.tally.haulTaken ∧ (addLength n s).tally.shortHaul = s.tally.shortHaul ∧
    (addLength n s).tally.clippedHaul = s.tally.clippedHaul ∧ (addLength n s).lay = s.lay ∧
    (addLength n s).mesh = s.mesh ∧ (addLength n s).coil.openCoil.number = s.coil.openCoil.number ∧
    (addLength n s).coil.openCoil.productId = s.coil.openCoil.productId ∧
    (addLength n s).coil.openCoil.net = s.coil.openCoil.net ∧
    (addLength n s).coil.openCoil.state = s.coil.openCoil.state ∧
    (addLength n s).coil.openCoil.start = s.coil.openCoil.start ∧
    (addLength n s).coil.openCoil.rows = s.coil.openCoil.rows ∧
    (addLength n s).coil.openCoil.worstDeviation = s.coil.openCoil.worstDeviation ∧
    (addLength n s).coil.openCoil.driftWindows = s.coil.openCoil.driftWindows ∧
    (addLength n s).coil.openCoil.grade = s.coil.openCoil.grade ∧
    (addLength n s).coil.openCoil.cutLag = s.coil.openCoil.cutLag ∧
    (addLength n s).coil.openCoil.overdue = s.coil.openCoil.overdue ∧
    (addLength n s).coil.queue = s.coil.queue ∧ (addLength n s).coil.counter = s.coil.counter ∧
    (addLength n s).coil.current = s.coil.current ∧ (addLength n s).coil.next = s.coil.next ∧
    (addLength n s).coil.pendingTake = s.coil.pendingTake ∧
    (addLength n s).coil.rejectedFrames = s.coil.rejectedFrames ∧
    (addLength n s).coil.marksMissed = s.coil.marksMissed ∧
    (addLength n s).coil.takeOverruns = s.coil.takeOverruns ∧
    (addLength n s).coil.nacksNotSent = s.coil.nacksNotSent ∧
    (addLength n s).coil.refusedChangeovers = s.coil.refusedChangeovers ∧ (addLength n s).portU = s.portU ∧
    (addLength n s).portD = s.portD ∧ (addLength n s).store.fqd = s.store.fqd ∧
    (addLength n s).store.fqu = s.store.fqu ∧ (addLength n s).store.iqd = s.store.iqd ∧
    (addLength n s).store.latchInFlight = s.store.latchInFlight ∧ (addLength n s).store.hold = s.store.hold ∧
    (addLength n s).store.arriving = s.store.arriving ∧ (addLength n s).store.reserved = s.store.reserved ∧
    (addLength n s).holdOut = s.holdOut ∧ (addLength n s).classifier = s.classifier ∧
    (addLength n s).resetIn = s.resetIn ∧ (addLength n s).freeDraws = s.freeDraws ∧
    (addLength n s).pending = s.pending := by
  simp [addLength]

/-- R90. -/
@[simp] theorem addRow_keeps (s : State) :
    (addRow s).mode = s.mode ∧ (addRow s).ownAddress = s.ownAddress ∧ (addRow s).tables = s.tables ∧
    (addRow s).tally = s.tally ∧ (addRow s).lay = s.lay ∧ (addRow s).mesh = s.mesh ∧
    (addRow s).coil.openCoil.number = s.coil.openCoil.number ∧
    (addRow s).coil.openCoil.productId = s.coil.openCoil.productId ∧
    (addRow s).coil.openCoil.net = s.coil.openCoil.net ∧
    (addRow s).coil.openCoil.state = s.coil.openCoil.state ∧
    (addRow s).coil.openCoil.length = s.coil.openCoil.length ∧
    (addRow s).coil.openCoil.start = s.coil.openCoil.start ∧
    (addRow s).coil.openCoil.worstDeviation = s.coil.openCoil.worstDeviation ∧
    (addRow s).coil.openCoil.driftWindows = s.coil.openCoil.driftWindows ∧
    (addRow s).coil.openCoil.defects = s.coil.openCoil.defects ∧
    (addRow s).coil.openCoil.overflow = s.coil.openCoil.overflow ∧
    (addRow s).coil.openCoil.overflowPoints = s.coil.openCoil.overflowPoints ∧
    (addRow s).coil.openCoil.points = s.coil.openCoil.points ∧
    (addRow s).coil.openCoil.grade = s.coil.openCoil.grade ∧
    (addRow s).coil.openCoil.cutLag = s.coil.openCoil.cutLag ∧
    (addRow s).coil.openCoil.overdue = s.coil.openCoil.overdue ∧
    (addRow s).coil.openCoil.overlengthNoted = s.coil.openCoil.overlengthNoted ∧
    (addRow s).coil.queue = s.coil.queue ∧ (addRow s).coil.counter = s.coil.counter ∧
    (addRow s).coil.current = s.coil.current ∧ (addRow s).coil.next = s.coil.next ∧
    (addRow s).coil.pendingTake = s.coil.pendingTake ∧ (addRow s).coil.rejectedFrames = s.coil.rejectedFrames ∧
    (addRow s).coil.marksMissed = s.coil.marksMissed ∧ (addRow s).coil.takeOverruns = s.coil.takeOverruns ∧
    (addRow s).coil.nacksNotSent = s.coil.nacksNotSent ∧
    (addRow s).coil.refusedChangeovers = s.coil.refusedChangeovers ∧ (addRow s).faults = s.faults ∧
    (addRow s).portU = s.portU ∧ (addRow s).portD = s.portD ∧ (addRow s).store = s.store ∧
    (addRow s).holdOut = s.holdOut ∧ (addRow s).classifier = s.classifier ∧ (addRow s).resetIn = s.resetIn ∧
    (addRow s).freeDraws = s.freeDraws ∧ (addRow s).pending = s.pending := by
  unfold addRow
  try dsimp only
  repeat' split
  all_goals simp

/-- R100. -/
@[simp] theorem cutwaitExpired_keeps (s : State) :
    (cutwaitExpired s).ownAddress = s.ownAddress ∧ (cutwaitExpired s).tables = s.tables ∧
    (cutwaitExpired s).tally.haulTotal = s.tally.haulTotal ∧
    (cutwaitExpired s).tally.packedTotal = s.tally.packedTotal ∧ (cutwaitExpired s).tally.coil = s.tally.coil ∧
    (cutwaitExpired s).tally.mark = s.tally.mark ∧ (cutwaitExpired s).tally.window = s.tally.window ∧
    (cutwaitExpired s).tally.windowLength = s.tally.windowLength ∧
    (cutwaitExpired s).tally.cutwait = s.tally.cutwait ∧ (cutwaitExpired s).tally.loaded = s.tally.loaded ∧
    (cutwaitExpired s).tally.haulTaken = s.tally.haulTaken ∧
    (cutwaitExpired s).tally.shortHaul = s.tally.shortHaul ∧
    (cutwaitExpired s).tally.clippedHaul = s.tally.clippedHaul ∧ (cutwaitExpired s).lay = s.lay ∧
    (cutwaitExpired s).mesh = s.mesh ∧ (cutwaitExpired s).coil.openCoil.number = s.coil.openCoil.number ∧
    (cutwaitExpired s).coil.openCoil.productId = s.coil.openCoil.productId ∧
    (cutwaitExpired s).coil.openCoil.net = s.coil.openCoil.net ∧
    (cutwaitExpired s).coil.openCoil.length = s.coil.openCoil.length ∧
    (cutwaitExpired s).coil.openCoil.start = s.coil.openCoil.start ∧
    (cutwaitExpired s).coil.openCoil.rows = s.coil.openCoil.rows ∧
    (cutwaitExpired s).coil.openCoil.worstDeviation = s.coil.openCoil.worstDeviation ∧
    (cutwaitExpired s).coil.openCoil.driftWindows = s.coil.openCoil.driftWindows ∧
    (cutwaitExpired s).coil.openCoil.grade = s.coil.openCoil.grade ∧
    (cutwaitExpired s).coil.openCoil.cutLag = s.coil.openCoil.cutLag ∧
    (cutwaitExpired s).coil.queue = s.coil.queue ∧ (cutwaitExpired s).coil.counter = s.coil.counter ∧
    (cutwaitExpired s).coil.current = s.coil.current ∧ (cutwaitExpired s).coil.next = s.coil.next ∧
    (cutwaitExpired s).coil.pendingTake = s.coil.pendingTake ∧
    (cutwaitExpired s).coil.rejectedFrames = s.coil.rejectedFrames ∧
    (cutwaitExpired s).coil.marksMissed = s.coil.marksMissed ∧
    (cutwaitExpired s).coil.takeOverruns = s.coil.takeOverruns ∧
    (cutwaitExpired s).coil.nacksNotSent = s.coil.nacksNotSent ∧
    (cutwaitExpired s).coil.refusedChangeovers = s.coil.refusedChangeovers ∧
    (cutwaitExpired s).portU = s.portU ∧ (cutwaitExpired s).portD = s.portD ∧
    (cutwaitExpired s).store.fqd = s.store.fqd ∧ (cutwaitExpired s).store.fqu = s.store.fqu ∧
    (cutwaitExpired s).store.iqd = s.store.iqd ∧
    (cutwaitExpired s).store.latchInFlight = s.store.latchInFlight ∧
    (cutwaitExpired s).store.hold = s.store.hold ∧ (cutwaitExpired s).store.arriving = s.store.arriving ∧
    (cutwaitExpired s).store.reserved = s.store.reserved ∧ (cutwaitExpired s).holdOut = s.holdOut ∧
    (cutwaitExpired s).classifier = s.classifier ∧ (cutwaitExpired s).resetIn = s.resetIn ∧
    (cutwaitExpired s).freeDraws = s.freeDraws ∧ (cutwaitExpired s).pending = s.pending := by
  simp [cutwaitExpired]

/-! ## The oldest CLOSED record (R102) -/

/-- R102: without a CLOSED record there is no oldest one, and no record changes. -/
theorem oldestClosed_none {q : List CoilRecord} (h : ∀ r ∈ q, r.state ≠ .closed) :
    oldestClosed q = none ∧ labelOldest q = q := by
  refine ⟨by unfold oldestClosed; rw [List.find?_eq_none]; simpa using h, ?_⟩
  induction q with
  | nil => rfl
  | cons a q ih =>
    unfold labelOldest
    rw [if_neg (h a (by simp)), ih (fun r hr => h r (by simp [hr]))]

/-- R102: the first CLOSED record is the oldest, and it alone becomes LABELLED. -/
theorem oldestClosed_split {before after : List CoilRecord} {r : CoilRecord} (hb : ∀ x ∈ before, x.state ≠ .closed)
    (hr : r.state = .closed) :
    oldestClosed (before ++ r :: after) = some r
      ∧ labelOldest (before ++ r :: after) = before ++ { r with state := .labelled } :: after := by
  refine ⟨?_, ?_⟩
  · have : before.find? (fun r => decide (r.state = .closed)) = none := by
      rw [List.find?_eq_none]
      simpa using hb
    unfold oldestClosed
    rw [List.find?_append, this]
    simp [hr]
  · induction before with
    | nil => simp [labelOldest, hr]
    | cons a q ih =>
      rw [List.cons_append]
      unfold labelOldest
      rw [if_neg (hb a (by simp)), ih (fun x hx => hb x (by simp [hx]))]
      rfl

/-- R103: with a TAKE pending and an IQD entry free the LABEL is queued and the TAKE no longer pends. -/
theorem servePending_serves (s : State) (hp : s.coil.pendingTake = true) (hi : s.iqdHeld < 4) :
    servePending s = sendLabel { s with coil.pendingTake := false } := by
  unfold servePending State.iqdRoom
  rw [if_pos (by simp [hp, hi])]

/-- R103: with no TAKE pending or no IQD entry free nothing changes. -/
theorem servePending_idle (s : State) (h : ¬(s.coil.pendingTake = true ∧ s.iqdHeld < 4)) : servePending s = s := by
  unfold servePending State.iqdRoom
  rw [if_neg (by simpa using h)]

end Sys2Proof.Machine
end

