-- ==== Sys2Proof/Laws/Lay.lean ====
section
/-! SUPPORT. What the lay monitor's operations can change. -/

namespace Sys2Proof.Machine

/-- The head records alone. -/
@[simp] theorem setHead_keeps (u : HeadUnit) (h : HeadRecord) (s : State) :
    (setHead u h s).mode = s.mode ∧ (setHead u h s).ownAddress = s.ownAddress ∧
    (setHead u h s).tables = s.tables ∧ (setHead u h s).tally = s.tally ∧
    (setHead u h s).lay.rejectedTurns = s.lay.rejectedTurns ∧
    (setHead u h s).lay.ignoredTurns = s.lay.ignoredTurns ∧ (setHead u h s).mesh = s.mesh ∧
    (setHead u h s).coil = s.coil ∧ (setHead u h s).faults = s.faults ∧ (setHead u h s).portU = s.portU ∧
    (setHead u h s).portD = s.portD ∧ (setHead u h s).store = s.store ∧ (setHead u h s).holdOut = s.holdOut ∧
    (setHead u h s).classifier = s.classifier ∧ (setHead u h s).resetIn = s.resetIn ∧
    (setHead u h s).freeDraws = s.freeDraws ∧ (setHead u h s).pending = s.pending := by
  repeat' apply And.intro
  all_goals rfl

/-- The head records alone. -/
@[simp] theorem mapHeads_keeps (f : HeadUnit → HeadRecord → HeadRecord) (s : State) :
    (mapHeads f s).mode = s.mode ∧ (mapHeads f s).ownAddress = s.ownAddress ∧ (mapHeads f s).tables = s.tables ∧
    (mapHeads f s).tally = s.tally ∧ (mapHeads f s).lay.rejectedTurns = s.lay.rejectedTurns ∧
    (mapHeads f s).lay.ignoredTurns = s.lay.ignoredTurns ∧ (mapHeads f s).mesh = s.mesh ∧
    (mapHeads f s).coil = s.coil ∧ (mapHeads f s).faults = s.faults ∧ (mapHeads f s).portU = s.portU ∧
    (mapHeads f s).portD = s.portD ∧ (mapHeads f s).store = s.store ∧ (mapHeads f s).holdOut = s.holdOut ∧
    (mapHeads f s).classifier = s.classifier ∧ (mapHeads f s).resetIn = s.resetIn ∧
    (mapHeads f s).freeDraws = s.freeDraws ∧ (mapHeads f s).pending = s.pending := by
  repeat' apply And.intro
  all_goals rfl

/-- R53. -/
@[simp] theorem enterThreadingHeads_keeps (s : State) :
    (enterThreadingHeads s).mode = s.mode ∧ (enterThreadingHeads s).ownAddress = s.ownAddress ∧
    (enterThreadingHeads s).tables = s.tables ∧ (enterThreadingHeads s).tally = s.tally ∧
    (enterThreadingHeads s).lay.rejectedTurns = s.lay.rejectedTurns ∧
    (enterThreadingHeads s).lay.ignoredTurns = s.lay.ignoredTurns ∧ (enterThreadingHeads s).mesh = s.mesh ∧
    (enterThreadingHeads s).coil = s.coil ∧ (enterThreadingHeads s).faults = s.faults ∧
    (enterThreadingHeads s).portU = s.portU ∧ (enterThreadingHeads s).portD = s.portD ∧
    (enterThreadingHeads s).store = s.store ∧ (enterThreadingHeads s).holdOut = s.holdOut ∧
    (enterThreadingHeads s).classifier = s.classifier ∧ (enterThreadingHeads s).resetIn = s.resetIn ∧
    (enterThreadingHeads s).freeDraws = s.freeDraws ∧ (enterThreadingHeads s).pending = s.pending := by
  repeat' apply And.intro
  all_goals rfl

/-- R53. -/
@[simp] theorem releaseHeads_keeps (s : State) :
    (releaseHeads s).mode = s.mode ∧ (releaseHeads s).ownAddress = s.ownAddress ∧
    (releaseHeads s).tables = s.tables ∧ (releaseHeads s).tally = s.tally ∧
    (releaseHeads s).lay.rejectedTurns = s.lay.rejectedTurns ∧
    (releaseHeads s).lay.ignoredTurns = s.lay.ignoredTurns ∧ (releaseHeads s).mesh = s.mesh ∧
    (releaseHeads s).coil = s.coil ∧ (releaseHeads s).faults = s.faults ∧ (releaseHeads s).portU = s.portU ∧
    (releaseHeads s).portD = s.portD ∧ (releaseHeads s).store = s.store ∧ (releaseHeads s).holdOut = s.holdOut ∧
    (releaseHeads s).classifier = s.classifier ∧ (releaseHeads s).resetIn = s.resetIn ∧
    (releaseHeads s).freeDraws = s.freeDraws ∧ (releaseHeads s).pending = s.pending := by
  repeat' apply And.intro
  all_goals rfl

/-- R55. -/
@[simp] theorem productStartHeads_keeps (s : State) :
    (productStartHeads s).mode = s.mode ∧ (productStartHeads s).ownAddress = s.ownAddress ∧
    (productStartHeads s).tables = s.tables ∧ (productStartHeads s).tally = s.tally ∧
    (productStartHeads s).lay.rejectedTurns = s.lay.rejectedTurns ∧
    (productStartHeads s).lay.ignoredTurns = s.lay.ignoredTurns ∧ (productStartHeads s).mesh = s.mesh ∧
    (productStartHeads s).coil = s.coil ∧ (productStartHeads s).faults = s.faults ∧
    (productStartHeads s).portU = s.portU ∧ (productStartHeads s).portD = s.portD ∧
    (productStartHeads s).store = s.store ∧ (productStartHeads s).holdOut = s.holdOut ∧
    (productStartHeads s).classifier = s.classifier ∧ (productStartHeads s).resetIn = s.resetIn ∧
    (productStartHeads s).freeDraws = s.freeDraws ∧ (productStartHeads s).pending = s.pending := by
  repeat' apply And.intro
  all_goals rfl

/-- R54. -/
@[simp] theorem clearDriftWindows_keeps (s : State) :
    (clearDriftWindows s).mode = s.mode ∧ (clearDriftWindows s).ownAddress = s.ownAddress ∧
    (clearDriftWindows s).tables = s.tables ∧ (clearDriftWindows s).tally = s.tally ∧
    (clearDriftWindows s).lay.rejectedTurns = s.lay.rejectedTurns ∧
    (clearDriftWindows s).lay.ignoredTurns = s.lay.ignoredTurns ∧ (clearDriftWindows s).mesh = s.mesh ∧
    (clearDriftWindows s).coil = s.coil ∧ (clearDriftWindows s).faults = s.faults ∧
    (clearDriftWindows s).portU = s.portU ∧ (clearDriftWindows s).portD = s.portD ∧
    (clearDriftWindows s).store = s.store ∧ (clearDriftWindows s).holdOut = s.holdOut ∧
    (clearDriftWindows s).classifier = s.classifier ∧ (clearDriftWindows s).resetIn = s.resetIn ∧
    (clearDriftWindows s).freeDraws = s.freeDraws ∧ (clearDriftWindows s).pending = s.pending := by
  repeat' apply And.intro
  all_goals rfl

/-- R46. -/
@[simp] theorem clearWindows_keeps (s : State) :
    (clearWindows s).mode = s.mode ∧ (clearWindows s).ownAddress = s.ownAddress ∧
    (clearWindows s).tables = s.tables ∧ (clearWindows s).tally = s.tally ∧
    (clearWindows s).lay.rejectedTurns = s.lay.rejectedTurns ∧
    (clearWindows s).lay.ignoredTurns = s.lay.ignoredTurns ∧ (clearWindows s).mesh = s.mesh ∧
    (clearWindows s).coil = s.coil ∧ (clearWindows s).faults = s.faults ∧ (clearWindows s).portU = s.portU ∧
    (clearWindows s).portD = s.portD ∧ (clearWindows s).store = s.store ∧ (clearWindows s).holdOut = s.holdOut ∧
    (clearWindows s).classifier = s.classifier ∧ (clearWindows s).resetIn = s.resetIn ∧
    (clearWindows s).freeDraws = s.freeDraws ∧ (clearWindows s).pending = s.pending := by
  repeat' apply And.intro
  all_goals rfl

/-- R43 to R45. -/
@[simp] theorem takeTurns_keeps (u : HeadUnit) (twist : Int) (tension strands : Nat) (s : State) :
    (takeTurns u twist tension strands s).ownAddress = s.ownAddress ∧
    (takeTurns u twist tension strands s).tables = s.tables ∧
    (takeTurns u twist tension strands s).tally.haulTotal = s.tally.haulTotal ∧
    (takeTurns u twist tension strands s).tally.packedTotal = s.tally.packedTotal ∧
    (takeTurns u twist tension strands s).tally.coil = s.tally.coil ∧
    (takeTurns u twist tension strands s).tally.mark = s.tally.mark ∧
    (takeTurns u twist tension strands s).tally.window = s.tally.window ∧
    (takeTurns u twist tension strands s).tally.windowLength = s.tally.windowLength ∧
    (takeTurns u twist tension strands s).tally.cutwait = s.tally.cutwait ∧
    (takeTurns u twist tension strands s).tally.loaded = s.tally.loaded ∧
    (takeTurns u twist tension strands s).tally.haulTaken = s.tally.haulTaken ∧
    (takeTurns u twist tension strands s).tally.shortHaul = s.tally.shortHaul ∧
    (takeTurns u twist tension strands s).tally.clippedHaul = s.tally.clippedHaul ∧
    (takeTurns u twist tension strands s).lay.rejectedTurns = s.lay.rejectedTurns ∧
    (takeTurns u twist tension strands s).lay.ignoredTurns = s.lay.ignoredTurns ∧
    (takeTurns u twist tension strands s).mesh = s.mesh ∧
    (takeTurns u twist tension strands s).coil.openCoil.number = s.coil.openCoil.number ∧
    (takeTurns u twist tension strands s).coil.openCoil.productId = s.coil.openCoil.productId ∧
    (takeTurns u twist tension strands s).coil.openCoil.net = s.coil.openCoil.net ∧
    (takeTurns u twist tension strands s).coil.openCoil.state = s.coil.openCoil.state ∧
    (takeTurns u twist tension strands s).coil.openCoil.length = s.coil.openCoil.length ∧
    (takeTurns u twist tension strands s).coil.openCoil.start = s.coil.openCoil.start ∧
    (takeTurns u twist tension strands s).coil.openCoil.rows = s.coil.openCoil.rows ∧
    (takeTurns u twist tension strands s).coil.openCoil.worstDeviation = s.coil.openCoil.worstDeviation ∧
    (takeTurns u twist tension strands s).coil.openCoil.driftWindows = s.coil.openCoil.driftWindows ∧
    (takeTurns u twist tension strands s).coil.openCoil.grade = s.coil.openCoil.grade ∧
    (takeTurns u twist tension strands s).coil.openCoil.cutLag = s.coil.openCoil.cutLag ∧
    (takeTurns u twist tension strands s).coil.openCoil.overdue = s.coil.openCoil.overdue ∧
    (takeTurns u twist tension strands s).coil.openCoil.overlengthNoted = s.coil.openCoil.overlengthNoted ∧
    (takeTurns u twist tension strands s).coil.queue = s.coil.queue ∧
    (takeTurns u twist tension strands s).coil.counter = s.coil.counter ∧
    (takeTurns u twist tension strands s).coil.current = s.coil.current ∧
    (takeTurns u twist tension strands s).coil.next = s.coil.next ∧
    (takeTurns u twist tension strands s).coil.pendingTake = s.coil.pendingTake ∧
    (takeTurns u twist tension strands s).coil.rejectedFrames = s.coil.rejectedFrames ∧
    (takeTurns u twist tension strands s).coil.marksMissed = s.coil.marksMissed ∧
    (takeTurns u twist tension strands s).coil.takeOverruns = s.coil.takeOverruns ∧
    (takeTurns u twist tension strands s).coil.nacksNotSent = s.coil.nacksNotSent ∧
    (takeTurns u twist tension strands s).coil.refusedChangeovers = s.coil.refusedChangeovers ∧
    (takeTurns u twist tension strands s).portU = s.portU ∧
    (takeTurns u twist tension strands s).portD = s.portD ∧
    (takeTurns u twist tension strands s).store.fqd = s.store.fqd ∧
    (takeTurns u twist tension strands s).store.fqu = s.store.fqu ∧
    (takeTurns u twist tension strands s).store.iqd = s.store.iqd ∧
    (takeTurns u twist tension strands s).store.latchInFlight = s.store.latchInFlight ∧
    (takeTurns u twist tension strands s).store.hold = s.store.hold ∧
    (takeTurns u twist tension strands s).store.arriving = s.store.arriving ∧
    (takeTurns u twist tension strands s).store.reserved = s.store.reserved ∧
    (takeTurns u twist tension strands s).holdOut = s.holdOut ∧
    (takeTurns u twist tension strands s).classifier = s.classifier ∧
    (takeTurns u twist tension strands s).resetIn = s.resetIn ∧
    (takeTurns u twist tension strands s).freeDraws = s.freeDraws ∧
    (takeTurns u twist tension strands s).pending = s.pending := by
  unfold takeTurns
  try dsimp only
  repeat' split
  all_goals simp

/-- R41, R42. -/
@[simp] theorem turnsReceived_keeps (u : HeadUnit) (payload : List Byte) (s : State) :
    (turnsReceived u payload s).ownAddress = s.ownAddress ∧ (turnsReceived u payload s).tables = s.tables ∧
    (turnsReceived u payload s).tally.haulTotal = s.tally.haulTotal ∧
    (turnsReceived u payload s).tally.packedTotal = s.tally.packedTotal ∧
    (turnsReceived u payload s).tally.coil = s.tally.coil ∧
    (turnsReceived u payload s).tally.mark = s.tally.mark ∧
    (turnsReceived u payload s).tally.window = s.tally.window ∧
    (turnsReceived u payload s).tally.windowLength = s.tally.windowLength ∧
    (turnsReceived u payload s).tally.cutwait = s.tally.cutwait ∧
    (turnsReceived u payload s).tally.loaded = s.tally.loaded ∧
    (turnsReceived u payload s).tally.haulTaken = s.tally.haulTaken ∧
    (turnsReceived u payload s).tally.shortHaul = s.tally.shortHaul ∧
    (turnsReceived u payload s).tally.clippedHaul = s.tally.clippedHaul ∧
    (turnsReceived u payload s).mesh = s.mesh ∧
    (turnsReceived u payload s).coil.openCoil.number = s.coil.openCoil.number ∧
    (turnsReceived u payload s).coil.openCoil.productId = s.coil.openCoil.productId ∧
    (turnsReceived u payload s).coil.openCoil.net = s.coil.openCoil.net ∧
    (turnsReceived u payload s).coil.openCoil.state = s.coil.openCoil.state ∧
    (turnsReceived u payload s).coil.openCoil.length = s.coil.openCoil.length ∧
    (turnsReceived u payload s).coil.openCoil.start = s.coil.openCoil.start ∧
    (turnsReceived u payload s).coil.openCoil.rows = s.coil.openCoil.rows ∧
    (turnsReceived u payload s).coil.openCoil.worstDeviation = s.coil.openCoil.worstDeviation ∧
    (turnsReceived u payload s).coil.openCoil.driftWindows = s.coil.openCoil.driftWindows ∧
    (turnsReceived u payload s).coil.openCoil.grade = s.coil.openCoil.grade ∧
    (turnsReceived u payload s).coil.openCoil.cutLag = s.coil.openCoil.cutLag ∧
    (turnsReceived u payload s).coil.openCoil.overdue = s.coil.openCoil.overdue ∧
    (turnsReceived u payload s).coil.openCoil.overlengthNoted = s.coil.openCoil.overlengthNoted ∧
    (turnsReceived u payload s).coil.queue = s.coil.queue ∧
    (turnsReceived u payload s).coil.counter = s.coil.counter ∧
    (turnsReceived u payload s).coil.current = s.coil.current ∧
    (turnsReceived u payload s).coil.next = s.coil.next ∧
    (turnsReceived u payload s).coil.pendingTake = s.coil.pendingTake ∧
    (turnsReceived u payload s).coil.rejectedFrames = s.coil.rejectedFrames ∧
    (turnsReceived u payload s).coil.marksMissed = s.coil.marksMissed ∧
    (turnsReceived u payload s).coil.takeOverruns = s.coil.takeOverruns ∧
    (turnsReceived u payload s).coil.nacksNotSent = s.coil.nacksNotSent ∧
    (turnsReceived u payload s).coil.refusedChangeovers = s.coil.refusedChangeovers ∧
    (turnsReceived u payload s).portU = s.portU ∧ (turnsReceived u payload s).portD = s.portD ∧
    (turnsReceived u payload s).store.fqd = s.store.fqd ∧ (turnsReceived u payload s).store.fqu = s.store.fqu ∧
    (turnsReceived u payload s).store.iqd = s.store.iqd ∧
    (turnsReceived u payload s).store.latchInFlight = s.store.latchInFlight ∧
    (turnsReceived u payload s).store.hold = s.store.hold ∧
    (turnsReceived u payload s).store.arriving = s.store.arriving ∧
    (turnsReceived u payload s).store.reserved = s.store.reserved ∧
    (turnsReceived u payload s).holdOut = s.holdOut ∧ (turnsReceived u payload s).classifier = s.classifier ∧
    (turnsReceived u payload s).resetIn = s.resetIn ∧ (turnsReceived u payload s).freeDraws = s.freeDraws ∧
    (turnsReceived u payload s).pending = s.pending := by
  unfold turnsReceived
  try dsimp only
  repeat' split
  all_goals simp

/-- R49: the lay summary of a record, every other field kept. -/
@[simp] theorem writeSummary_keeps (measured drift : Bool) (worst : Nat) (c : CoilRecord) :
    (writeSummary measured drift worst c).number = c.number ∧
    (writeSummary measured drift worst c).productId = c.productId ∧
    (writeSummary measured drift worst c).net = c.net ∧ (writeSummary measured drift worst c).state = c.state ∧
    (writeSummary measured drift worst c).length = c.length ∧
    (writeSummary measured drift worst c).start = c.start ∧
    (writeSummary measured drift worst c).rows = c.rows ∧
    (writeSummary measured drift worst c).defects = c.defects ∧
    (writeSummary measured drift worst c).overflow = c.overflow ∧
    (writeSummary measured drift worst c).overflowPoints = c.overflowPoints ∧
    (writeSummary measured drift worst c).points = c.points ∧
    (writeSummary measured drift worst c).grade = c.grade ∧
    (writeSummary measured drift worst c).cutLag = c.cutLag ∧
    (writeSummary measured drift worst c).overdue = c.overdue ∧
    (writeSummary measured drift worst c).overlengthNoted = c.overlengthNoted := by
  unfold writeSummary
  split <;> (repeat' apply And.intro) <;> rfl

/-- R46 to R49. -/
@[simp] theorem windowEnded_keeps (w : Nat) (s : State) :
    (windowEnded w s).ownAddress = s.ownAddress ∧ (windowEnded w s).tables = s.tables ∧
    (windowEnded w s).tally.haulTotal = s.tally.haulTotal ∧
    (windowEnded w s).tally.packedTotal = s.tally.packedTotal ∧ (windowEnded w s).tally.coil = s.tally.coil ∧
    (windowEnded w s).tally.mark = s.tally.mark ∧ (windowEnded w s).tally.window = s.tally.window ∧
    (windowEnded w s).tally.windowLength = s.tally.windowLength ∧
    (windowEnded w s).tally.cutwait = s.tally.cutwait ∧ (windowEnded w s).tally.loaded = s.tally.loaded ∧
    (windowEnded w s).tally.haulTaken = s.tally.haulTaken ∧
    (windowEnded w s).tally.shortHaul = s.tally.shortHaul ∧
    (windowEnded w s).tally.clippedHaul = s.tally.clippedHaul ∧
    (windowEnded w s).lay.rejectedTurns = s.lay.rejectedTurns ∧
    (windowEnded w s).lay.ignoredTurns = s.lay.ignoredTurns ∧ (windowEnded w s).mesh = s.mesh ∧
    (windowEnded w s).coil.openCoil.number = s.coil.openCoil.number ∧
    (windowEnded w s).coil.openCoil.productId = s.coil.openCoil.productId ∧
    (windowEnded w s).coil.openCoil.net = s.coil.openCoil.net ∧
    (windowEnded w s).coil.openCoil.state = s.coil.openCoil.state ∧
    (windowEnded w s).coil.openCoil.length = s.coil.openCoil.length ∧
    (windowEnded w s).coil.openCoil.start = s.coil.openCoil.start ∧
    (windowEnded w s).coil.openCoil.rows = s.coil.openCoil.rows ∧
    (windowEnded w s).coil.openCoil.grade = s.coil.openCoil.grade ∧
    (windowEnded w s).coil.openCoil.cutLag = s.coil.openCoil.cutLag ∧
    (windowEnded w s).coil.openCoil.overdue = s.coil.openCoil.overdue ∧
    (windowEnded w s).coil.openCoil.overlengthNoted = s.coil.openCoil.overlengthNoted ∧
    (windowEnded w s).coil.queue = s.coil.queue ∧ (windowEnded w s).coil.counter = s.coil.counter ∧
    (windowEnded w s).coil.current = s.coil.current ∧ (windowEnded w s).coil.next = s.coil.next ∧
    (windowEnded w s).coil.pendingTake = s.coil.pendingTake ∧
    (windowEnded w s).coil.rejectedFrames = s.coil.rejectedFrames ∧
    (windowEnded w s).coil.marksMissed = s.coil.marksMissed ∧
    (windowEnded w s).coil.takeOverruns = s.coil.takeOverruns ∧
    (windowEnded w s).coil.nacksNotSent = s.coil.nacksNotSent ∧
    (windowEnded w s).coil.refusedChangeovers = s.coil.refusedChangeovers ∧ (windowEnded w s).portU = s.portU ∧
    (windowEnded w s).portD = s.portD ∧ (windowEnded w s).store.fqd = s.store.fqd ∧
    (windowEnded w s).store.fqu = s.store.fqu ∧ (windowEnded w s).store.iqd = s.store.iqd ∧
    (windowEnded w s).store.latchInFlight = s.store.latchInFlight ∧
    (windowEnded w s).store.hold = s.store.hold ∧ (windowEnded w s).store.arriving = s.store.arriving ∧
    (windowEnded w s).store.reserved = s.store.reserved ∧ (windowEnded w s).holdOut = s.holdOut ∧
    (windowEnded w s).classifier = s.classifier ∧ (windowEnded w s).resetIn = s.resetIn ∧
    (windowEnded w s).freeDraws = s.freeDraws ∧ (windowEnded w s).pending = s.pending := by
  unfold windowEnded
  try dsimp only
  repeat' split
  all_goals simp

/-! ## The head records after an operation over all of them -/

/-- Each head becomes what the operation makes of it. -/
theorem mapHeads_head (f : HeadUnit → HeadRecord → HeadRecord) (s : State) (u : HeadUnit) :
    (mapHeads f s).head u = f u (s.head u) := by
  simp [State.head, mapHeads, allUnits, List.getD_eq_getElem?_getD]

/-- R8, R40: at entry to THREADING from PARKED. -/
theorem enterThreadingHeads_head (s : State) (u : HeadUnit) :
    (enterThreadingHeads s).head u = (s.head u).restartBy (s.layRow u).inUse := mapHeads_head _ s u

/-- R15, R40: at RELEASE. -/
theorem releaseHeads_head (s : State) (u : HeadUnit) : (releaseHeads s).head u =
    if (s.head u).state = .broken then (s.head u).restartBy (s.layRow u).inUse else s.head u := mapHeads_head _ s u

/-- R55: at a product start. -/
theorem productStartHeads_head (s : State) (u : HeadUnit) :
    (productStartHeads s).head u = (s.head u).productStart (s.layRow u).inUse := mapHeads_head _ s u

/-- R54: at a coil open. -/
theorem clearDriftWindows_head (s : State) (u : HeadUnit) :
    (clearDriftWindows s).head u = { s.head u with driftWindows := 0 } := mapHeads_head _ s u

end Sys2Proof.Machine
end

