-- ==== Sys2Proof/Laws/Mesh.lean ====
section
/-! SUPPORT. What the mesh monitor's operations can change. -/

namespace Sys2Proof.Machine

/-- R63. -/
@[simp] theorem loadCursor_keeps (s : State) :
    (loadCursor s).mode = s.mode ∧ (loadCursor s).ownAddress = s.ownAddress ∧ (loadCursor s).tables = s.tables ∧
    (loadCursor s).tally = s.tally ∧ (loadCursor s).lay = s.lay ∧ (loadCursor s).coil = s.coil ∧
    (loadCursor s).faults = s.faults ∧ (loadCursor s).portU = s.portU ∧ (loadCursor s).portD = s.portD ∧
    (loadCursor s).store = s.store ∧ (loadCursor s).holdOut = s.holdOut ∧
    (loadCursor s).classifier = s.classifier ∧ (loadCursor s).resetIn = s.resetIn ∧
    (loadCursor s).freeDraws = s.freeDraws ∧ (loadCursor s).pending = s.pending := by
  unfold loadCursor
  try dsimp only
  repeat' split
  all_goals simp

/-- R63: the monitor that a load from a product gives. -/
def Mesh.loadedFrom (t : Tables) (p : ProductRow) (m : Mesh) : Mesh :=
  match p.kind with
  | .twineNet =>
    { m with active := true, misses := [], cursor := Cursor.load p.startStep (t.meshRow p.startStep) }
  | .rope => { m with active := false, misses := [], cursor := Cursor.cleared }

/-- R63: the load is that of the current product. -/
theorem loadCursor_mesh (s : State) : (loadCursor s).mesh = s.mesh.loadedFrom s.tables s.product := by
  unfold loadCursor Mesh.loadedFrom; split <;> simp_all

/-- R8, R63: at entry to THREADING from PARKED: a load where the monitor's state does not match the product's kind,
else at most the expected row and the pitch reference change. -/
theorem enterThreadingMesh_mesh (s : State) : (enterThreadingMesh s).mesh =
    if s.mesh.active = decide (s.product.kind = .twineNet) then
      match s.product.kind with
      | .twineNet => { s.mesh with cursor.expected := none, cursor.pitchRef := none }
      | .rope => s.mesh
    else s.mesh.loadedFrom s.tables s.product := by
  rw [← loadCursor_mesh]; unfold enterThreadingMesh
  cases hk : s.product.kind <;> cases ha : s.mesh.active <;> simp [unsync, loadCursor, hk]

/-- R15, R63: at RELEASE. -/
theorem releaseMesh_mesh (s : State) : (releaseMesh s).mesh =
    match s.product.kind with
    | .twineNet => { s.mesh with cursor.expected := none, cursor.pitchRef := none }
    | .rope => s.mesh := by
  unfold releaseMesh; split <;> simp_all [unsync]

/-- R63. -/
@[simp] theorem unsync_keeps (s : State) :
    (unsync s).mode = s.mode ∧ (unsync s).ownAddress = s.ownAddress ∧ (unsync s).tables = s.tables ∧
    (unsync s).tally = s.tally ∧ (unsync s).lay = s.lay ∧ (unsync s).mesh.active = s.mesh.active ∧
    (unsync s).mesh.misses = s.mesh.misses ∧ (unsync s).mesh.counts = s.mesh.counts ∧ (unsync s).coil = s.coil ∧
    (unsync s).faults = s.faults ∧ (unsync s).portU = s.portU ∧ (unsync s).portD = s.portD ∧
    (unsync s).store = s.store ∧ (unsync s).holdOut = s.holdOut ∧ (unsync s).classifier = s.classifier ∧
    (unsync s).resetIn = s.resetIn ∧ (unsync s).freeDraws = s.freeDraws ∧ (unsync s).pending = s.pending := by
  repeat' apply And.intro
  all_goals rfl

/-- R63. -/
@[simp] theorem enterThreadingMesh_keeps (s : State) :
    (enterThreadingMesh s).mode = s.mode ∧ (enterThreadingMesh s).ownAddress = s.ownAddress ∧
    (enterThreadingMesh s).tables = s.tables ∧ (enterThreadingMesh s).tally = s.tally ∧
    (enterThreadingMesh s).lay = s.lay ∧ (enterThreadingMesh s).coil = s.coil ∧
    (enterThreadingMesh s).faults = s.faults ∧ (enterThreadingMesh s).portU = s.portU ∧
    (enterThreadingMesh s).portD = s.portD ∧ (enterThreadingMesh s).store = s.store ∧
    (enterThreadingMesh s).holdOut = s.holdOut ∧ (enterThreadingMesh s).classifier = s.classifier ∧
    (enterThreadingMesh s).resetIn = s.resetIn ∧ (enterThreadingMesh s).freeDraws = s.freeDraws ∧
    (enterThreadingMesh s).pending = s.pending := by
  unfold enterThreadingMesh
  try dsimp only
  repeat' split
  all_goals simp

/-- R63. -/
@[simp] theorem releaseMesh_keeps (s : State) :
    (releaseMesh s).mode = s.mode ∧ (releaseMesh s).ownAddress = s.ownAddress ∧
    (releaseMesh s).tables = s.tables ∧ (releaseMesh s).tally = s.tally ∧ (releaseMesh s).lay = s.lay ∧
    (releaseMesh s).mesh.active = s.mesh.active ∧ (releaseMesh s).mesh.misses = s.mesh.misses ∧
    (releaseMesh s).mesh.counts = s.mesh.counts ∧ (releaseMesh s).coil = s.coil ∧
    (releaseMesh s).faults = s.faults ∧ (releaseMesh s).portU = s.portU ∧ (releaseMesh s).portD = s.portD ∧
    (releaseMesh s).store = s.store ∧ (releaseMesh s).holdOut = s.holdOut ∧
    (releaseMesh s).classifier = s.classifier ∧ (releaseMesh s).resetIn = s.resetIn ∧
    (releaseMesh s).freeDraws = s.freeDraws ∧ (releaseMesh s).pending = s.pending := by
  unfold releaseMesh
  try dsimp only
  repeat' split
  all_goals simp

/-- R70. -/
@[simp] theorem pruneMisses_keeps (s : State) :
    (pruneMisses s).mode = s.mode ∧ (pruneMisses s).ownAddress = s.ownAddress ∧
    (pruneMisses s).tables = s.tables ∧ (pruneMisses s).tally = s.tally ∧ (pruneMisses s).lay = s.lay ∧
    (pruneMisses s).mesh.active = s.mesh.active ∧ (pruneMisses s).mesh.cursor = s.mesh.cursor ∧
    (pruneMisses s).mesh.counts = s.mesh.counts ∧ (pruneMisses s).coil = s.coil ∧
    (pruneMisses s).faults = s.faults ∧ (pruneMisses s).portU = s.portU ∧ (pruneMisses s).portD = s.portD ∧
    (pruneMisses s).store = s.store ∧ (pruneMisses s).holdOut = s.holdOut ∧
    (pruneMisses s).classifier = s.classifier ∧ (pruneMisses s).resetIn = s.resetIn ∧
    (pruneMisses s).freeDraws = s.freeDraws ∧ (pruneMisses s).pending = s.pending := by
  repeat' apply And.intro
  all_goals rfl

/-- R70. -/
@[simp] theorem taper_keeps (s : State) :
    (taper s).mode = s.mode ∧ (taper s).ownAddress = s.ownAddress ∧ (taper s).tables = s.tables ∧
    (taper s).tally = s.tally ∧ (taper s).lay = s.lay ∧ (taper s).coil = s.coil ∧ (taper s).faults = s.faults ∧
    (taper s).portU = s.portU ∧ (taper s).portD = s.portD ∧ (taper s).store = s.store ∧
    (taper s).holdOut = s.holdOut ∧ (taper s).classifier = s.classifier ∧ (taper s).resetIn = s.resetIn ∧
    (taper s).freeDraws = s.freeDraws ∧ (taper s).pending = s.pending := by
  unfold taper
  try dsimp only
  repeat' split
  all_goals simp

/-- R71. -/
@[simp] theorem enterStep_keeps (i : StepIndex) (row : MeshRow) (s : State) :
    (enterStep i row s).mode = s.mode ∧ (enterStep i row s).ownAddress = s.ownAddress ∧
    (enterStep i row s).tables = s.tables ∧ (enterStep i row s).tally = s.tally ∧
    (enterStep i row s).lay = s.lay ∧ (enterStep i row s).coil = s.coil ∧
    (enterStep i row s).faults = s.faults ∧ (enterStep i row s).portU = s.portU ∧
    (enterStep i row s).portD = s.portD ∧ (enterStep i row s).store = s.store ∧
    (enterStep i row s).holdOut = s.holdOut ∧ (enterStep i row s).classifier = s.classifier ∧
    (enterStep i row s).resetIn = s.resetIn ∧ (enterStep i row s).freeDraws = s.freeDraws ∧
    (enterStep i row s).pending = s.pending := by
  repeat' apply And.intro
  all_goals rfl

/-- R71. -/
@[simp] theorem holdCursor_keeps (s : State) :
    (holdCursor s).mode = s.mode ∧ (holdCursor s).ownAddress = s.ownAddress ∧ (holdCursor s).tables = s.tables ∧
    (holdCursor s).tally = s.tally ∧ (holdCursor s).lay = s.lay ∧ (holdCursor s).mesh.active = s.mesh.active ∧
    (holdCursor s).mesh.misses = s.mesh.misses ∧ (holdCursor s).mesh.counts = s.mesh.counts ∧
    (holdCursor s).coil = s.coil ∧ (holdCursor s).faults = s.faults ∧ (holdCursor s).portU = s.portU ∧
    (holdCursor s).portD = s.portD ∧ (holdCursor s).store = s.store ∧ (holdCursor s).holdOut = s.holdOut ∧
    (holdCursor s).classifier = s.classifier ∧ (holdCursor s).resetIn = s.resetIn ∧
    (holdCursor s).freeDraws = s.freeDraws ∧ (holdCursor s).pending = s.pending := by
  repeat' apply And.intro
  all_goals rfl

/-- R71. -/
@[simp] theorem endStep_keeps (s : State) :
    (endStep s).mode = s.mode ∧ (endStep s).ownAddress = s.ownAddress ∧ (endStep s).tables = s.tables ∧
    (endStep s).tally = s.tally ∧ (endStep s).lay = s.lay ∧ (endStep s).coil = s.coil ∧
    (endStep s).faults = s.faults ∧ (endStep s).portU = s.portU ∧ (endStep s).portD = s.portD ∧
    (endStep s).store = s.store ∧ (endStep s).holdOut = s.holdOut ∧ (endStep s).classifier = s.classifier ∧
    (endStep s).resetIn = s.resetIn ∧ (endStep s).freeDraws = s.freeDraws ∧ (endStep s).pending = s.pending := by
  unfold endStep
  split
  · simp
  · dsimp only
    split <;> simp

/-- R69. -/
@[simp] theorem countRow_keeps (s : State) :
    (countRow s).mode = s.mode ∧ (countRow s).ownAddress = s.ownAddress ∧ (countRow s).tables = s.tables ∧
    (countRow s).tally = s.tally ∧ (countRow s).lay = s.lay ∧
    (countRow s).coil.openCoil.number = s.coil.openCoil.number ∧
    (countRow s).coil.openCoil.productId = s.coil.openCoil.productId ∧
    (countRow s).coil.openCoil.net = s.coil.openCoil.net ∧
    (countRow s).coil.openCoil.state = s.coil.openCoil.state ∧
    (countRow s).coil.openCoil.length = s.coil.openCoil.length ∧
    (countRow s).coil.openCoil.start = s.coil.openCoil.start ∧
    (countRow s).coil.openCoil.worstDeviation = s.coil.openCoil.worstDeviation ∧
    (countRow s).coil.openCoil.driftWindows = s.coil.openCoil.driftWindows ∧
    (countRow s).coil.openCoil.defects = s.coil.openCoil.defects ∧
    (countRow s).coil.openCoil.overflow = s.coil.openCoil.overflow ∧
    (countRow s).coil.openCoil.overflowPoints = s.coil.openCoil.overflowPoints ∧
    (countRow s).coil.openCoil.points = s.coil.openCoil.points ∧
    (countRow s).coil.openCoil.grade = s.coil.openCoil.grade ∧
    (countRow s).coil.openCoil.cutLag = s.coil.openCoil.cutLag ∧
    (countRow s).coil.openCoil.overdue = s.coil.openCoil.overdue ∧
    (countRow s).coil.openCoil.overlengthNoted = s.coil.openCoil.overlengthNoted ∧
    (countRow s).coil.queue = s.coil.queue ∧ (countRow s).coil.counter = s.coil.counter ∧
    (countRow s).coil.current = s.coil.current ∧ (countRow s).coil.next = s.coil.next ∧
    (countRow s).coil.pendingTake = s.coil.pendingTake ∧
    (countRow s).coil.rejectedFrames = s.coil.rejectedFrames ∧
    (countRow s).coil.marksMissed = s.coil.marksMissed ∧ (countRow s).coil.takeOverruns = s.coil.takeOverruns ∧
    (countRow s).coil.nacksNotSent = s.coil.nacksNotSent ∧
    (countRow s).coil.refusedChangeovers = s.coil.refusedChangeovers ∧ (countRow s).faults = s.faults ∧
    (countRow s).portU = s.portU ∧ (countRow s).portD = s.portD ∧ (countRow s).store = s.store ∧
    (countRow s).holdOut = s.holdOut ∧ (countRow s).classifier = s.classifier ∧
    (countRow s).resetIn = s.resetIn ∧ (countRow s).freeDraws = s.freeDraws ∧ (countRow s).pending = s.pending := by
  simp [countRow]

/-- R69. -/
@[simp] theorem taperIfDue_keeps (s : State) :
    (taperIfDue s).mode = s.mode ∧ (taperIfDue s).ownAddress = s.ownAddress ∧ (taperIfDue s).tables = s.tables ∧
    (taperIfDue s).tally = s.tally ∧ (taperIfDue s).lay = s.lay ∧ (taperIfDue s).coil = s.coil ∧
    (taperIfDue s).faults = s.faults ∧ (taperIfDue s).portU = s.portU ∧ (taperIfDue s).portD = s.portD ∧
    (taperIfDue s).store = s.store ∧ (taperIfDue s).holdOut = s.holdOut ∧
    (taperIfDue s).classifier = s.classifier ∧ (taperIfDue s).resetIn = s.resetIn ∧
    (taperIfDue s).freeDraws = s.freeDraws ∧ (taperIfDue s).pending = s.pending := by
  unfold taperIfDue
  try dsimp only
  repeat' split
  all_goals simp

/-- R69. -/
@[simp] theorem endStepIfDue_keeps (s : State) :
    (endStepIfDue s).mode = s.mode ∧ (endStepIfDue s).ownAddress = s.ownAddress ∧
    (endStepIfDue s).tables = s.tables ∧ (endStepIfDue s).tally = s.tally ∧ (endStepIfDue s).lay = s.lay ∧
    (endStepIfDue s).coil = s.coil ∧ (endStepIfDue s).faults = s.faults ∧ (endStepIfDue s).portU = s.portU ∧
    (endStepIfDue s).portD = s.portD ∧ (endStepIfDue s).store = s.store ∧ (endStepIfDue s).holdOut = s.holdOut ∧
    (endStepIfDue s).classifier = s.classifier ∧ (endStepIfDue s).resetIn = s.resetIn ∧
    (endStepIfDue s).freeDraws = s.freeDraws ∧ (endStepIfDue s).pending = s.pending := by
  unfold endStepIfDue
  try dsimp only
  repeat' split
  all_goals simp

/-- R69. -/
@[simp] theorem advance_keeps (s : State) :
    (advance s).mode = s.mode ∧ (advance s).ownAddress = s.ownAddress ∧ (advance s).tables = s.tables ∧
    (advance s).tally = s.tally ∧ (advance s).lay = s.lay ∧
    (advance s).coil.openCoil.number = s.coil.openCoil.number ∧
    (advance s).coil.openCoil.productId = s.coil.openCoil.productId ∧
    (advance s).coil.openCoil.net = s.coil.openCoil.net ∧
    (advance s).coil.openCoil.state = s.coil.openCoil.state ∧
    (advance s).coil.openCoil.length = s.coil.openCoil.length ∧
    (advance s).coil.openCoil.start = s.coil.openCoil.start ∧
    (advance s).coil.openCoil.worstDeviation = s.coil.openCoil.worstDeviation ∧
    (advance s).coil.openCoil.driftWindows = s.coil.openCoil.driftWindows ∧
    (advance s).coil.openCoil.defects = s.coil.openCoil.defects ∧
    (advance s).coil.openCoil.overflow = s.coil.openCoil.overflow ∧
    (advance s).coil.openCoil.overflowPoints = s.coil.openCoil.overflowPoints ∧
    (advance s).coil.openCoil.points = s.coil.openCoil.points ∧
    (advance s).coil.openCoil.grade = s.coil.openCoil.grade ∧
    (advance s).coil.openCoil.cutLag = s.coil.openCoil.cutLag ∧
    (advance s).coil.openCoil.overdue = s.coil.openCoil.overdue ∧
    (advance s).coil.openCoil.overlengthNoted = s.coil.openCoil.overlengthNoted ∧
    (advance s).coil.queue = s.coil.queue ∧ (advance s).coil.counter = s.coil.counter ∧
    (advance s).coil.current = s.coil.current ∧ (advance s).coil.next = s.coil.next ∧
    (advance s).coil.pendingTake = s.coil.pendingTake ∧
    (advance s).coil.rejectedFrames = s.coil.rejectedFrames ∧
    (advance s).coil.marksMissed = s.coil.marksMissed ∧ (advance s).coil.takeOverruns = s.coil.takeOverruns ∧
    (advance s).coil.nacksNotSent = s.coil.nacksNotSent ∧
    (advance s).coil.refusedChangeovers = s.coil.refusedChangeovers ∧ (advance s).faults = s.faults ∧
    (advance s).portU = s.portU ∧ (advance s).portD = s.portD ∧ (advance s).store = s.store ∧
    (advance s).holdOut = s.holdOut ∧ (advance s).classifier = s.classifier ∧ (advance s).resetIn = s.resetIn ∧
    (advance s).freeDraws = s.freeDraws ∧ (advance s).pending = s.pending := by
  simp [advance]

/-- R68. -/
@[simp] theorem advanceBy_keeps (d : Nat) (s : State) :
    (advanceBy d s).mode = s.mode ∧ (advanceBy d s).ownAddress = s.ownAddress ∧
    (advanceBy d s).tables = s.tables ∧ (advanceBy d s).tally = s.tally ∧ (advanceBy d s).lay = s.lay ∧
    (advanceBy d s).coil.openCoil.number = s.coil.openCoil.number ∧
    (advanceBy d s).coil.openCoil.productId = s.coil.openCoil.productId ∧
    (advanceBy d s).coil.openCoil.net = s.coil.openCoil.net ∧
    (advanceBy d s).coil.openCoil.state = s.coil.openCoil.state ∧
    (advanceBy d s).coil.openCoil.length = s.coil.openCoil.length ∧
    (advanceBy d s).coil.openCoil.start = s.coil.openCoil.start ∧
    (advanceBy d s).coil.openCoil.worstDeviation = s.coil.openCoil.worstDeviation ∧
    (advanceBy d s).coil.openCoil.driftWindows = s.coil.openCoil.driftWindows ∧
    (advanceBy d s).coil.openCoil.defects = s.coil.openCoil.defects ∧
    (advanceBy d s).coil.openCoil.overflow = s.coil.openCoil.overflow ∧
    (advanceBy d s).coil.openCoil.overflowPoints = s.coil.openCoil.overflowPoints ∧
    (advanceBy d s).coil.openCoil.points = s.coil.openCoil.points ∧
    (advanceBy d s).coil.openCoil.grade = s.coil.openCoil.grade ∧
    (advanceBy d s).coil.openCoil.cutLag = s.coil.openCoil.cutLag ∧
    (advanceBy d s).coil.openCoil.overdue = s.coil.openCoil.overdue ∧
    (advanceBy d s).coil.openCoil.overlengthNoted = s.coil.openCoil.overlengthNoted ∧
    (advanceBy d s).coil.queue = s.coil.queue ∧ (advanceBy d s).coil.counter = s.coil.counter ∧
    (advanceBy d s).coil.current = s.coil.current ∧ (advanceBy d s).coil.next = s.coil.next ∧
    (advanceBy d s).coil.pendingTake = s.coil.pendingTake ∧
    (advanceBy d s).coil.rejectedFrames = s.coil.rejectedFrames ∧
    (advanceBy d s).coil.marksMissed = s.coil.marksMissed ∧
    (advanceBy d s).coil.takeOverruns = s.coil.takeOverruns ∧
    (advanceBy d s).coil.nacksNotSent = s.coil.nacksNotSent ∧
    (advanceBy d s).coil.refusedChangeovers = s.coil.refusedChangeovers ∧ (advanceBy d s).faults = s.faults ∧
    (advanceBy d s).portU = s.portU ∧ (advanceBy d s).portD = s.portD ∧ (advanceBy d s).store = s.store ∧
    (advanceBy d s).holdOut = s.holdOut ∧ (advanceBy d s).classifier = s.classifier ∧
    (advanceBy d s).resetIn = s.resetIn ∧ (advanceBy d s).freeDraws = s.freeDraws ∧
    (advanceBy d s).pending = s.pending := by
  induction d generalizing s with
  | zero => simp [advanceBy]
  | succ d ih => simp [advanceBy, ih]

/-- R74. -/
@[simp] theorem missUntracked_keeps (sc : RowScan) :
    ((missUntracked sc).state).mode = sc.state.mode ∧ ((missUntracked sc).state).ownAddress = sc.state.ownAddress ∧
    ((missUntracked sc).state).tables = sc.state.tables ∧ ((missUntracked sc).state).tally = sc.state.tally ∧
    ((missUntracked sc).state).lay = sc.state.lay ∧ ((missUntracked sc).state).coil = sc.state.coil ∧
    ((missUntracked sc).state).faults = sc.state.faults ∧ ((missUntracked sc).state).portU = sc.state.portU ∧
    ((missUntracked sc).state).portD = sc.state.portD ∧ ((missUntracked sc).state).store = sc.state.store ∧
    ((missUntracked sc).state).holdOut = sc.state.holdOut ∧ ((missUntracked sc).state).classifier = sc.state.classifier ∧
    ((missUntracked sc).state).resetIn = sc.state.resetIn ∧ ((missUntracked sc).state).freeDraws = sc.state.freeDraws ∧
    ((missUntracked sc).state).pending = sc.state.pending := by
  unfold missUntracked
  dsimp only
  split <;> simp

/-- R74. -/
@[simp] theorem trackMiss_keeps (p : Nat) (sc : RowScan) :
    ((trackMiss p sc).state).mode = sc.state.mode ∧ ((trackMiss p sc).state).ownAddress = sc.state.ownAddress ∧
    ((trackMiss p sc).state).tables = sc.state.tables ∧ ((trackMiss p sc).state).tally = sc.state.tally ∧
    ((trackMiss p sc).state).lay = sc.state.lay ∧ ((trackMiss p sc).state).coil = sc.state.coil ∧
    ((trackMiss p sc).state).faults = sc.state.faults ∧ ((trackMiss p sc).state).portU = sc.state.portU ∧
    ((trackMiss p sc).state).portD = sc.state.portD ∧ ((trackMiss p sc).state).store = sc.state.store ∧
    ((trackMiss p sc).state).holdOut = sc.state.holdOut ∧ ((trackMiss p sc).state).classifier = sc.state.classifier ∧
    ((trackMiss p sc).state).resetIn = sc.state.resetIn ∧ ((trackMiss p sc).state).freeDraws = sc.state.freeDraws ∧
    ((trackMiss p sc).state).pending = sc.state.pending := by
  unfold trackMiss
  dsimp only
  repeat' split
  all_goals simp

/-- R73. -/
@[simp] theorem scanPosition_keeps (sc : RowScan) (p : Nat) :
    ((scanPosition sc p).state).mode = sc.state.mode ∧ ((scanPosition sc p).state).ownAddress = sc.state.ownAddress ∧
    ((scanPosition sc p).state).tables = sc.state.tables ∧ ((scanPosition sc p).state).tally = sc.state.tally ∧
    ((scanPosition sc p).state).lay = sc.state.lay ∧ ((scanPosition sc p).state).coil = sc.state.coil ∧
    ((scanPosition sc p).state).faults = sc.state.faults ∧ ((scanPosition sc p).state).portU = sc.state.portU ∧
    ((scanPosition sc p).state).portD = sc.state.portD ∧ ((scanPosition sc p).state).store = sc.state.store ∧
    ((scanPosition sc p).state).holdOut = sc.state.holdOut ∧ ((scanPosition sc p).state).classifier = sc.state.classifier ∧
    ((scanPosition sc p).state).resetIn = sc.state.resetIn ∧ ((scanPosition sc p).state).freeDraws = sc.state.freeDraws ∧
    ((scanPosition sc p).state).pending = sc.state.pending := by
  unfold scanPosition
  dsimp only
  repeat' split
  all_goals simp

/-- R73. -/
@[simp] theorem scanPositions_keeps (l : List Nat) (sc : RowScan) :
    ((scanPositions l sc).state).mode = sc.state.mode ∧ ((scanPositions l sc).state).ownAddress = sc.state.ownAddress ∧
    ((scanPositions l sc).state).tables = sc.state.tables ∧ ((scanPositions l sc).state).tally = sc.state.tally ∧
    ((scanPositions l sc).state).lay = sc.state.lay ∧ ((scanPositions l sc).state).coil = sc.state.coil ∧
    ((scanPositions l sc).state).faults = sc.state.faults ∧ ((scanPositions l sc).state).portU = sc.state.portU ∧
    ((scanPositions l sc).state).portD = sc.state.portD ∧ ((scanPositions l sc).state).store = sc.state.store ∧
    ((scanPositions l sc).state).holdOut = sc.state.holdOut ∧ ((scanPositions l sc).state).classifier = sc.state.classifier ∧
    ((scanPositions l sc).state).resetIn = sc.state.resetIn ∧ ((scanPositions l sc).state).freeDraws = sc.state.freeDraws ∧
    ((scanPositions l sc).state).pending = sc.state.pending := by
  unfold scanPositions
  induction l generalizing sc with
  | nil => simp
  | cons p rest ih => simp [ih]

/-- R76. -/
@[simp] theorem clearMisses_keeps (missing : Nat) (listed : List Nat) (s : State) :
    (clearMisses missing listed s).mode = s.mode ∧ (clearMisses missing listed s).ownAddress = s.ownAddress ∧
    (clearMisses missing listed s).tables = s.tables ∧ (clearMisses missing listed s).tally = s.tally ∧
    (clearMisses missing listed s).lay = s.lay ∧ (clearMisses missing listed s).mesh.active = s.mesh.active ∧
    (clearMisses missing listed s).mesh.cursor = s.mesh.cursor ∧
    (clearMisses missing listed s).mesh.counts = s.mesh.counts ∧ (clearMisses missing listed s).coil = s.coil ∧
    (clearMisses missing listed s).faults = s.faults ∧ (clearMisses missing listed s).portU = s.portU ∧
    (clearMisses missing listed s).portD = s.portD ∧ (clearMisses missing listed s).store = s.store ∧
    (clearMisses missing listed s).holdOut = s.holdOut ∧
    (clearMisses missing listed s).classifier = s.classifier ∧
    (clearMisses missing listed s).resetIn = s.resetIn ∧
    (clearMisses missing listed s).freeDraws = s.freeDraws ∧ (clearMisses missing listed s).pending = s.pending := by
  unfold clearMisses
  try dsimp only
  repeat' split
  all_goals simp

/-- R66 step 7. -/
@[simp] theorem expectNext_keeps (row : Nat) (s : State) :
    (expectNext row s).mode = s.mode ∧ (expectNext row s).ownAddress = s.ownAddress ∧
    (expectNext row s).tables = s.tables ∧ (expectNext row s).tally = s.tally ∧ (expectNext row s).lay = s.lay ∧
    (expectNext row s).mesh.active = s.mesh.active ∧ (expectNext row s).mesh.misses = s.mesh.misses ∧
    (expectNext row s).mesh.counts = s.mesh.counts ∧ (expectNext row s).coil = s.coil ∧
    (expectNext row s).faults = s.faults ∧ (expectNext row s).portU = s.portU ∧
    (expectNext row s).portD = s.portD ∧ (expectNext row s).store = s.store ∧
    (expectNext row s).holdOut = s.holdOut ∧ (expectNext row s).classifier = s.classifier ∧
    (expectNext row s).resetIn = s.resetIn ∧ (expectNext row s).freeDraws = s.freeDraws ∧
    (expectNext row s).pending = s.pending := by
  repeat' apply And.intro
  all_goals rfl

/-- R66. -/
@[simp] theorem processRow_keeps (d row missing : Nat) (listed : List Nat) (s : State) :
    (processRow d row missing listed s).ownAddress = s.ownAddress ∧
    (processRow d row missing listed s).tables = s.tables ∧
    (processRow d row missing listed s).tally.haulTotal = s.tally.haulTotal ∧
    (processRow d row missing listed s).tally.packedTotal = s.tally.packedTotal ∧
    (processRow d row missing listed s).tally.coil = s.tally.coil ∧
    (processRow d row missing listed s).tally.mark = s.tally.mark ∧
    (processRow d row missing listed s).tally.window = s.tally.window ∧
    (processRow d row missing listed s).tally.windowLength = s.tally.windowLength ∧
    (processRow d row missing listed s).tally.cutwait = s.tally.cutwait ∧
    (processRow d row missing listed s).tally.loaded = s.tally.loaded ∧
    (processRow d row missing listed s).tally.haulTaken = s.tally.haulTaken ∧
    (processRow d row missing listed s).tally.shortHaul = s.tally.shortHaul ∧
    (processRow d row missing listed s).tally.clippedHaul = s.tally.clippedHaul ∧
    (processRow d row missing listed s).lay = s.lay ∧
    (processRow d row missing listed s).coil.openCoil.number = s.coil.openCoil.number ∧
    (processRow d row missing listed s).coil.openCoil.productId = s.coil.openCoil.productId ∧
    (processRow d row missing listed s).coil.openCoil.net = s.coil.openCoil.net ∧
    (processRow d row missing listed s).coil.openCoil.state = s.coil.openCoil.state ∧
    (processRow d row missing listed s).coil.openCoil.length = s.coil.openCoil.length ∧
    (processRow d row missing listed s).coil.openCoil.start = s.coil.openCoil.start ∧
    (processRow d row missing listed s).coil.openCoil.worstDeviation = s.coil.openCoil.worstDeviation ∧
    (processRow d row missing listed s).coil.openCoil.driftWindows = s.coil.openCoil.driftWindows ∧
    (processRow d row missing listed s).coil.openCoil.grade = s.coil.openCoil.grade ∧
    (processRow d row missing listed s).coil.openCoil.cutLag = s.coil.openCoil.cutLag ∧
    (processRow d row missing listed s).coil.openCoil.overdue = s.coil.openCoil.overdue ∧
    (processRow d row missing listed s).coil.openCoil.overlengthNoted = s.coil.openCoil.overlengthNoted ∧
    (processRow d row missing listed s).coil.queue = s.coil.queue ∧
    (processRow d row missing listed s).coil.counter = s.coil.counter ∧
    (processRow d row missing listed s).coil.current = s.coil.current ∧
    (processRow d row missing listed s).coil.next = s.coil.next ∧
    (processRow d row missing listed s).coil.pendingTake = s.coil.pendingTake ∧
    (processRow d row missing listed s).coil.rejectedFrames = s.coil.rejectedFrames ∧
    (processRow d row missing listed s).coil.marksMissed = s.coil.marksMissed ∧
    (processRow d row missing listed s).coil.takeOverruns = s.coil.takeOverruns ∧
    (processRow d row missing listed s).coil.nacksNotSent = s.coil.nacksNotSent ∧
    (processRow d row missing listed s).coil.refusedChangeovers = s.coil.refusedChangeovers ∧
    (processRow d row missing listed s).portU = s.portU ∧ (processRow d row missing listed s).portD = s.portD ∧
    (processRow d row missing listed s).store.fqd = s.store.fqd ∧
    (processRow d row missing listed s).store.fqu = s.store.fqu ∧
    (processRow d row missing listed s).store.iqd = s.store.iqd ∧
    (processRow d row missing listed s).store.latchInFlight = s.store.latchInFlight ∧
    (processRow d row missing listed s).store.hold = s.store.hold ∧
    (processRow d row missing listed s).store.arriving = s.store.arriving ∧
    (processRow d row missing listed s).store.reserved = s.store.reserved ∧
    (processRow d row missing listed s).holdOut = s.holdOut ∧
    (processRow d row missing listed s).classifier = s.classifier ∧
    (processRow d row missing listed s).resetIn = s.resetIn ∧
    (processRow d row missing listed s).freeDraws = s.freeDraws ∧
    (processRow d row missing listed s).pending = s.pending := by
  simp [processRow]

/-- R67. -/
@[simp] theorem rowReported_keeps (row missing : Nat) (listed : List Nat) (s : State) :
    (rowReported row missing listed s).ownAddress = s.ownAddress ∧
    (rowReported row missing listed s).tables = s.tables ∧
    (rowReported row missing listed s).tally.haulTotal = s.tally.haulTotal ∧
    (rowReported row missing listed s).tally.packedTotal = s.tally.packedTotal ∧
    (rowReported row missing listed s).tally.coil = s.tally.coil ∧
    (rowReported row missing listed s).tally.mark = s.tally.mark ∧
    (rowReported row missing listed s).tally.window = s.tally.window ∧
    (rowReported row missing listed s).tally.windowLength = s.tally.windowLength ∧
    (rowReported row missing listed s).tally.cutwait = s.tally.cutwait ∧
    (rowReported row missing listed s).tally.loaded = s.tally.loaded ∧
    (rowReported row missing listed s).tally.haulTaken = s.tally.haulTaken ∧
    (rowReported row missing listed s).tally.shortHaul = s.tally.shortHaul ∧
    (rowReported row missing listed s).tally.clippedHaul = s.tally.clippedHaul ∧
    (rowReported row missing listed s).lay = s.lay ∧
    (rowReported row missing listed s).coil.openCoil.number = s.coil.openCoil.number ∧
    (rowReported row missing listed s).coil.openCoil.productId = s.coil.openCoil.productId ∧
    (rowReported row missing listed s).coil.openCoil.net = s.coil.openCoil.net ∧
    (rowReported row missing listed s).coil.openCoil.state = s.coil.openCoil.state ∧
    (rowReported row missing listed s).coil.openCoil.length = s.coil.openCoil.length ∧
    (rowReported row missing listed s).coil.openCoil.start = s.coil.openCoil.start ∧
    (rowReported row missing listed s).coil.openCoil.worstDeviation = s.coil.openCoil.worstDeviation ∧
    (rowReported row missing listed s).coil.openCoil.driftWindows = s.coil.openCoil.driftWindows ∧
    (rowReported row missing listed s).coil.openCoil.grade = s.coil.openCoil.grade ∧
    (rowReported row missing listed s).coil.openCoil.cutLag = s.coil.openCoil.cutLag ∧
    (rowReported row missing listed s).coil.openCoil.overdue = s.coil.openCoil.overdue ∧
    (rowReported row missing listed s).coil.openCoil.overlengthNoted = s.coil.openCoil.overlengthNoted ∧
    (rowReported row missing listed s).coil.queue = s.coil.queue ∧
    (rowReported row missing listed s).coil.counter = s.coil.counter ∧
    (rowReported row missing listed s).coil.current = s.coil.current ∧
    (rowReported row missing listed s).coil.next = s.coil.next ∧
    (rowReported row missing listed s).coil.pendingTake = s.coil.pendingTake ∧
    (rowReported row missing listed s).coil.rejectedFrames = s.coil.rejectedFrames ∧
    (rowReported row missing listed s).coil.marksMissed = s.coil.marksMissed ∧
    (rowReported row missing listed s).coil.takeOverruns = s.coil.takeOverruns ∧
    (rowReported row missing listed s).coil.nacksNotSent = s.coil.nacksNotSent ∧
    (rowReported row missing listed s).coil.refusedChangeovers = s.coil.refusedChangeovers ∧
    (rowReported row missing listed s).portU = s.portU ∧ (rowReported row missing listed s).portD = s.portD ∧
    (rowReported row missing listed s).store.fqd = s.store.fqd ∧
    (rowReported row missing listed s).store.fqu = s.store.fqu ∧
    (rowReported row missing listed s).store.iqd = s.store.iqd ∧
    (rowReported row missing listed s).store.latchInFlight = s.store.latchInFlight ∧
    (rowReported row missing listed s).store.hold = s.store.hold ∧
    (rowReported row missing listed s).store.arriving = s.store.arriving ∧
    (rowReported row missing listed s).store.reserved = s.store.reserved ∧
    (rowReported row missing listed s).holdOut = s.holdOut ∧
    (rowReported row missing listed s).classifier = s.classifier ∧
    (rowReported row missing listed s).resetIn = s.resetIn ∧
    (rowReported row missing listed s).freeDraws = s.freeDraws ∧
    (rowReported row missing listed s).pending = s.pending := by
  unfold rowReported
  dsimp only
  split <;> simp

/-- R64, R65. -/
@[simp] theorem rowdoneReceived_keeps (payload : List Byte) (s : State) :
    (rowdoneReceived payload s).ownAddress = s.ownAddress ∧ (rowdoneReceived payload s).tables = s.tables ∧
    (rowdoneReceived payload s).tally.haulTotal = s.tally.haulTotal ∧
    (rowdoneReceived payload s).tally.packedTotal = s.tally.packedTotal ∧
    (rowdoneReceived payload s).tally.coil = s.tally.coil ∧
    (rowdoneReceived payload s).tally.mark = s.tally.mark ∧
    (rowdoneReceived payload s).tally.window = s.tally.window ∧
    (rowdoneReceived payload s).tally.windowLength = s.tally.windowLength ∧
    (rowdoneReceived payload s).tally.cutwait = s.tally.cutwait ∧
    (rowdoneReceived payload s).tally.loaded = s.tally.loaded ∧
    (rowdoneReceived payload s).tally.haulTaken = s.tally.haulTaken ∧
    (rowdoneReceived payload s).tally.shortHaul = s.tally.shortHaul ∧
    (rowdoneReceived payload s).tally.clippedHaul = s.tally.clippedHaul ∧
    (rowdoneReceived payload s).lay = s.lay ∧
    (rowdoneReceived payload s).coil.openCoil.number = s.coil.openCoil.number ∧
    (rowdoneReceived payload s).coil.openCoil.productId = s.coil.openCoil.productId ∧
    (rowdoneReceived payload s).coil.openCoil.net = s.coil.openCoil.net ∧
    (rowdoneReceived payload s).coil.openCoil.state = s.coil.openCoil.state ∧
    (rowdoneReceived payload s).coil.openCoil.length = s.coil.openCoil.length ∧
    (rowdoneReceived payload s).coil.openCoil.start = s.coil.openCoil.start ∧
    (rowdoneReceived payload s).coil.openCoil.worstDeviation = s.coil.openCoil.worstDeviation ∧
    (rowdoneReceived payload s).coil.openCoil.driftWindows = s.coil.openCoil.driftWindows ∧
    (rowdoneReceived payload s).coil.openCoil.grade = s.coil.openCoil.grade ∧
    (rowdoneReceived payload s).coil.openCoil.cutLag = s.coil.openCoil.cutLag ∧
    (rowdoneReceived payload s).coil.openCoil.overdue = s.coil.openCoil.overdue ∧
    (rowdoneReceived payload s).coil.openCoil.overlengthNoted = s.coil.openCoil.overlengthNoted ∧
    (rowdoneReceived payload s).coil.queue = s.coil.queue ∧
    (rowdoneReceived payload s).coil.counter = s.coil.counter ∧
    (rowdoneReceived payload s).coil.current = s.coil.current ∧
    (rowdoneReceived payload s).coil.next = s.coil.next ∧
    (rowdoneReceived payload s).coil.pendingTake = s.coil.pendingTake ∧
    (rowdoneReceived payload s).coil.rejectedFrames = s.coil.rejectedFrames ∧
    (rowdoneReceived payload s).coil.marksMissed = s.coil.marksMissed ∧
    (rowdoneReceived payload s).coil.takeOverruns = s.coil.takeOverruns ∧
    (rowdoneReceived payload s).coil.nacksNotSent = s.coil.nacksNotSent ∧
    (rowdoneReceived payload s).coil.refusedChangeovers = s.coil.refusedChangeovers ∧
    (rowdoneReceived payload s).portU = s.portU ∧ (rowdoneReceived payload s).portD = s.portD ∧
    (rowdoneReceived payload s).store.fqd = s.store.fqd ∧ (rowdoneReceived payload s).store.fqu = s.store.fqu ∧
    (rowdoneReceived payload s).store.iqd = s.store.iqd ∧
    (rowdoneReceived payload s).store.latchInFlight = s.store.latchInFlight ∧
    (rowdoneReceived payload s).store.hold = s.store.hold ∧
    (rowdoneReceived payload s).store.arriving = s.store.arriving ∧
    (rowdoneReceived payload s).store.reserved = s.store.reserved ∧
    (rowdoneReceived payload s).holdOut = s.holdOut ∧ (rowdoneReceived payload s).classifier = s.classifier ∧
    (rowdoneReceived payload s).resetIn = s.resetIn ∧ (rowdoneReceived payload s).freeDraws = s.freeDraws ∧
    (rowdoneReceived payload s).pending = s.pending := by
  unfold rowdoneReceived
  try dsimp only
  repeat' split
  all_goals simp

end Sys2Proof.Machine
end

