-- ==== Sys2Proof/Laws/Tally.lean ====
section
/-! SUPPORT. What the length tally's operations can change. -/

namespace Sys2Proof.Machine

/-- R25, R27. -/
@[simp] theorem giveCoil_keeps (n : Nat) (s : State) :
    (giveCoil n s).ownAddress = s.ownAddress ∧ (giveCoil n s).tables = s.tables ∧
    (giveCoil n s).tally.haulTotal = s.tally.haulTotal ∧
    (giveCoil n s).tally.packedTotal = s.tally.packedTotal ∧ (giveCoil n s).tally.mark = s.tally.mark ∧
    (giveCoil n s).tally.window = s.tally.window ∧ (giveCoil n s).tally.windowLength = s.tally.windowLength ∧
    (giveCoil n s).tally.cutwait = s.tally.cutwait ∧ (giveCoil n s).tally.loaded = s.tally.loaded ∧
    (giveCoil n s).tally.haulTaken = s.tally.haulTaken ∧ (giveCoil n s).tally.shortHaul = s.tally.shortHaul ∧
    (giveCoil n s).tally.clippedHaul = s.tally.clippedHaul ∧ (giveCoil n s).lay = s.lay ∧
    (giveCoil n s).mesh = s.mesh ∧ (giveCoil n s).coil.openCoil.number = s.coil.openCoil.number ∧
    (giveCoil n s).coil.openCoil.productId = s.coil.openCoil.productId ∧
    (giveCoil n s).coil.openCoil.net = s.coil.openCoil.net ∧
    (giveCoil n s).coil.openCoil.length = s.coil.openCoil.length ∧
    (giveCoil n s).coil.openCoil.start = s.coil.openCoil.start ∧
    (giveCoil n s).coil.openCoil.rows = s.coil.openCoil.rows ∧
    (giveCoil n s).coil.openCoil.worstDeviation = s.coil.openCoil.worstDeviation ∧
    (giveCoil n s).coil.openCoil.driftWindows = s.coil.openCoil.driftWindows ∧
    (giveCoil n s).coil.openCoil.grade = s.coil.openCoil.grade ∧
    (giveCoil n s).coil.openCoil.overdue = s.coil.openCoil.overdue ∧
    (giveCoil n s).coil.openCoil.overlengthNoted = s.coil.openCoil.overlengthNoted ∧
    (giveCoil n s).coil.queue = s.coil.queue ∧ (giveCoil n s).coil.counter = s.coil.counter ∧
    (giveCoil n s).coil.current = s.coil.current ∧ (giveCoil n s).coil.next = s.coil.next ∧
    (giveCoil n s).coil.pendingTake = s.coil.pendingTake ∧
    (giveCoil n s).coil.rejectedFrames = s.coil.rejectedFrames ∧
    (giveCoil n s).coil.marksMissed = s.coil.marksMissed ∧
    (giveCoil n s).coil.takeOverruns = s.coil.takeOverruns ∧
    (giveCoil n s).coil.nacksNotSent = s.coil.nacksNotSent ∧
    (giveCoil n s).coil.refusedChangeovers = s.coil.refusedChangeovers ∧ (giveCoil n s).portU = s.portU ∧
    (giveCoil n s).portD = s.portD ∧ (giveCoil n s).store.fqd = s.store.fqd ∧
    (giveCoil n s).store.fqu = s.store.fqu ∧ (giveCoil n s).store.latchInFlight = s.store.latchInFlight ∧
    (giveCoil n s).store.hold = s.store.hold ∧ (giveCoil n s).store.arriving = s.store.arriving ∧
    (giveCoil n s).store.reserved = s.store.reserved ∧ (giveCoil n s).holdOut = s.holdOut ∧
    (giveCoil n s).classifier = s.classifier ∧ (giveCoil n s).resetIn = s.resetIn ∧
    (giveCoil n s).freeDraws = s.freeDraws ∧ (giveCoil n s).pending = s.pending := by
  unfold giveCoil
  dsimp only
  repeat' split
  all_goals simp

/-- R25, R28. -/
@[simp] theorem giveMark_keeps (n : Nat) (s : State) :
    (giveMark n s).mode = s.mode ∧ (giveMark n s).ownAddress = s.ownAddress ∧ (giveMark n s).tables = s.tables ∧
    (giveMark n s).tally.haulTotal = s.tally.haulTotal ∧
    (giveMark n s).tally.packedTotal = s.tally.packedTotal ∧ (giveMark n s).tally.coil = s.tally.coil ∧
    (giveMark n s).tally.window = s.tally.window ∧ (giveMark n s).tally.windowLength = s.tally.windowLength ∧
    (giveMark n s).tally.haulwatch = s.tally.haulwatch ∧ (giveMark n s).tally.cutwait = s.tally.cutwait ∧
    (giveMark n s).tally.loaded = s.tally.loaded ∧ (giveMark n s).tally.haulTaken = s.tally.haulTaken ∧
    (giveMark n s).tally.shortHaul = s.tally.shortHaul ∧
    (giveMark n s).tally.clippedHaul = s.tally.clippedHaul ∧ (giveMark n s).lay = s.lay ∧
    (giveMark n s).mesh = s.mesh ∧ (giveMark n s).coil.openCoil = s.coil.openCoil ∧
    (giveMark n s).coil.queue = s.coil.queue ∧ (giveMark n s).coil.counter = s.coil.counter ∧
    (giveMark n s).coil.current = s.coil.current ∧ (giveMark n s).coil.next = s.coil.next ∧
    (giveMark n s).coil.pendingTake = s.coil.pendingTake ∧
    (giveMark n s).coil.rejectedFrames = s.coil.rejectedFrames ∧
    (giveMark n s).coil.takeOverruns = s.coil.takeOverruns ∧
    (giveMark n s).coil.nacksNotSent = s.coil.nacksNotSent ∧
    (giveMark n s).coil.refusedChangeovers = s.coil.refusedChangeovers ∧ (giveMark n s).faults = s.faults ∧
    (giveMark n s).portU = s.portU ∧ (giveMark n s).portD = s.portD ∧ (giveMark n s).store.fqd = s.store.fqd ∧
    (giveMark n s).store.fqu = s.store.fqu ∧ (giveMark n s).store.iqu = s.store.iqu ∧
    (giveMark n s).store.latchPending = s.store.latchPending ∧
    (giveMark n s).store.latchInFlight = s.store.latchInFlight ∧ (giveMark n s).store.hold = s.store.hold ∧
    (giveMark n s).store.arriving = s.store.arriving ∧ (giveMark n s).store.reserved = s.store.reserved ∧
    (giveMark n s).holdOut = s.holdOut ∧ (giveMark n s).classifier = s.classifier ∧
    (giveMark n s).resetIn = s.resetIn ∧ (giveMark n s).freeDraws = s.freeDraws ∧
    (giveMark n s).pending = s.pending := by
  unfold giveMark
  dsimp only
  repeat' split
  all_goals simp

/-- R25, R29. -/
@[simp] theorem giveWindow_keeps (n : Nat) (s : State) :
    (giveWindow n s).ownAddress = s.ownAddress ∧ (giveWindow n s).tables = s.tables ∧
    (giveWindow n s).tally.haulTotal = s.tally.haulTotal ∧
    (giveWindow n s).tally.packedTotal = s.tally.packedTotal ∧ (giveWindow n s).tally.coil = s.tally.coil ∧
    (giveWindow n s).tally.mark = s.tally.mark ∧ (giveWindow n s).tally.cutwait = s.tally.cutwait ∧
    (giveWindow n s).tally.loaded = s.tally.loaded ∧ (giveWindow n s).tally.haulTaken = s.tally.haulTaken ∧
    (giveWindow n s).tally.shortHaul = s.tally.shortHaul ∧
    (giveWindow n s).tally.clippedHaul = s.tally.clippedHaul ∧
    (giveWindow n s).lay.rejectedTurns = s.lay.rejectedTurns ∧
    (giveWindow n s).lay.ignoredTurns = s.lay.ignoredTurns ∧ (giveWindow n s).mesh = s.mesh ∧
    (giveWindow n s).coil.openCoil.number = s.coil.openCoil.number ∧
    (giveWindow n s).coil.openCoil.productId = s.coil.openCoil.productId ∧
    (giveWindow n s).coil.openCoil.net = s.coil.openCoil.net ∧
    (giveWindow n s).coil.openCoil.state = s.coil.openCoil.state ∧
    (giveWindow n s).coil.openCoil.length = s.coil.openCoil.length ∧
    (giveWindow n s).coil.openCoil.start = s.coil.openCoil.start ∧
    (giveWindow n s).coil.openCoil.rows = s.coil.openCoil.rows ∧
    (giveWindow n s).coil.openCoil.grade = s.coil.openCoil.grade ∧
    (giveWindow n s).coil.openCoil.cutLag = s.coil.openCoil.cutLag ∧
    (giveWindow n s).coil.openCoil.overdue = s.coil.openCoil.overdue ∧
    (giveWindow n s).coil.openCoil.overlengthNoted = s.coil.openCoil.overlengthNoted ∧
    (giveWindow n s).coil.queue = s.coil.queue ∧ (giveWindow n s).coil.counter = s.coil.counter ∧
    (giveWindow n s).coil.current = s.coil.current ∧ (giveWindow n s).coil.next = s.coil.next ∧
    (giveWindow n s).coil.pendingTake = s.coil.pendingTake ∧
    (giveWindow n s).coil.rejectedFrames = s.coil.rejectedFrames ∧
    (giveWindow n s).coil.marksMissed = s.coil.marksMissed ∧
    (giveWindow n s).coil.takeOverruns = s.coil.takeOverruns ∧
    (giveWindow n s).coil.nacksNotSent = s.coil.nacksNotSent ∧
    (giveWindow n s).coil.refusedChangeovers = s.coil.refusedChangeovers ∧ (giveWindow n s).portU = s.portU ∧
    (giveWindow n s).portD = s.portD ∧ (giveWindow n s).store.fqd = s.store.fqd ∧
    (giveWindow n s).store.fqu = s.store.fqu ∧ (giveWindow n s).store.iqd = s.store.iqd ∧
    (giveWindow n s).store.latchInFlight = s.store.latchInFlight ∧ (giveWindow n s).store.hold = s.store.hold ∧
    (giveWindow n s).store.arriving = s.store.arriving ∧ (giveWindow n s).store.reserved = s.store.reserved ∧
    (giveWindow n s).holdOut = s.holdOut ∧ (giveWindow n s).classifier = s.classifier ∧
    (giveWindow n s).resetIn = s.resetIn ∧ (giveWindow n s).freeDraws = s.freeDraws ∧
    (giveWindow n s).pending = s.pending := by
  unfold giveWindow
  dsimp only
  repeat' split
  all_goals simp

/-- R21 step 4. -/
@[simp] theorem giveLength_keeps (n : Nat) (s : State) :
    (giveLength n s).ownAddress = s.ownAddress ∧ (giveLength n s).tables = s.tables ∧
    (giveLength n s).tally.haulTotal = s.tally.haulTotal ∧
    (giveLength n s).tally.packedTotal = s.tally.packedTotal ∧
    (giveLength n s).tally.cutwait = s.tally.cutwait ∧ (giveLength n s).tally.loaded = s.tally.loaded ∧
    (giveLength n s).tally.haulTaken = s.tally.haulTaken ∧
    (giveLength n s).tally.shortHaul = s.tally.shortHaul ∧
    (giveLength n s).tally.clippedHaul = s.tally.clippedHaul ∧
    (giveLength n s).lay.rejectedTurns = s.lay.rejectedTurns ∧
    (giveLength n s).lay.ignoredTurns = s.lay.ignoredTurns ∧ (giveLength n s).mesh = s.mesh ∧
    (giveLength n s).coil.openCoil.number = s.coil.openCoil.number ∧
    (giveLength n s).coil.openCoil.productId = s.coil.openCoil.productId ∧
    (giveLength n s).coil.openCoil.net = s.coil.openCoil.net ∧
    (giveLength n s).coil.openCoil.length = s.coil.openCoil.length ∧
    (giveLength n s).coil.openCoil.start = s.coil.openCoil.start ∧
    (giveLength n s).coil.openCoil.rows = s.coil.openCoil.rows ∧
    (giveLength n s).coil.openCoil.grade = s.coil.openCoil.grade ∧
    (giveLength n s).coil.openCoil.overdue = s.coil.openCoil.overdue ∧
    (giveLength n s).coil.openCoil.overlengthNoted = s.coil.openCoil.overlengthNoted ∧
    (giveLength n s).coil.queue = s.coil.queue ∧ (giveLength n s).coil.counter = s.coil.counter ∧
    (giveLength n s).coil.current = s.coil.current ∧ (giveLength n s).coil.next = s.coil.next ∧
    (giveLength n s).coil.pendingTake = s.coil.pendingTake ∧
    (giveLength n s).coil.rejectedFrames = s.coil.rejectedFrames ∧
    (giveLength n s).coil.takeOverruns = s.coil.takeOverruns ∧
    (giveLength n s).coil.nacksNotSent = s.coil.nacksNotSent ∧
    (giveLength n s).coil.refusedChangeovers = s.coil.refusedChangeovers ∧ (giveLength n s).portU = s.portU ∧
    (giveLength n s).portD = s.portD ∧ (giveLength n s).store.fqd = s.store.fqd ∧
    (giveLength n s).store.fqu = s.store.fqu ∧ (giveLength n s).store.latchInFlight = s.store.latchInFlight ∧
    (giveLength n s).store.hold = s.store.hold ∧ (giveLength n s).store.arriving = s.store.arriving ∧
    (giveLength n s).store.reserved = s.store.reserved ∧ (giveLength n s).holdOut = s.holdOut ∧
    (giveLength n s).classifier = s.classifier ∧ (giveLength n s).resetIn = s.resetIn ∧
    (giveLength n s).freeDraws = s.freeDraws ∧ (giveLength n s).pending = s.pending := by
  simp [giveLength]

/-- R21, R23. -/
@[simp] theorem countClipped_keeps (clipped : Bool) (s : State) :
    (countClipped clipped s).mode = s.mode ∧ (countClipped clipped s).ownAddress = s.ownAddress ∧
    (countClipped clipped s).tables = s.tables ∧ (countClipped clipped s).tally.haulTotal = s.tally.haulTotal ∧
    (countClipped clipped s).tally.packedTotal = s.tally.packedTotal ∧
    (countClipped clipped s).tally.coil = s.tally.coil ∧ (countClipped clipped s).tally.mark = s.tally.mark ∧
    (countClipped clipped s).tally.window = s.tally.window ∧
    (countClipped clipped s).tally.windowLength = s.tally.windowLength ∧
    (countClipped clipped s).tally.haulwatch = s.tally.haulwatch ∧
    (countClipped clipped s).tally.cutwait = s.tally.cutwait ∧
    (countClipped clipped s).tally.loaded = s.tally.loaded ∧
    (countClipped clipped s).tally.haulTaken = s.tally.haulTaken ∧
    (countClipped clipped s).tally.shortHaul = s.tally.shortHaul ∧ (countClipped clipped s).lay = s.lay ∧
    (countClipped clipped s).mesh = s.mesh ∧ (countClipped clipped s).coil = s.coil ∧
    (countClipped clipped s).faults = s.faults ∧ (countClipped clipped s).portU = s.portU ∧
    (countClipped clipped s).portD = s.portD ∧ (countClipped clipped s).store = s.store ∧
    (countClipped clipped s).holdOut = s.holdOut ∧ (countClipped clipped s).classifier = s.classifier ∧
    (countClipped clipped s).resetIn = s.resetIn ∧ (countClipped clipped s).freeDraws = s.freeDraws ∧
    (countClipped clipped s).pending = s.pending := by
  unfold countClipped
  try dsimp only
  repeat' split
  all_goals simp

/-- R21. -/
@[simp] theorem haulForward_keeps (n : Nat) (s : State) :
    (haulForward n s).ownAddress = s.ownAddress ∧ (haulForward n s).tables = s.tables ∧
    (haulForward n s).tally.packedTotal = s.tally.packedTotal ∧
    (haulForward n s).tally.cutwait = s.tally.cutwait ∧ (haulForward n s).tally.loaded = s.tally.loaded ∧
    (haulForward n s).tally.haulTaken = s.tally.haulTaken ∧
    (haulForward n s).tally.shortHaul = s.tally.shortHaul ∧
    (haulForward n s).lay.rejectedTurns = s.lay.rejectedTurns ∧
    (haulForward n s).lay.ignoredTurns = s.lay.ignoredTurns ∧ (haulForward n s).mesh = s.mesh ∧
    (haulForward n s).coil.openCoil.number = s.coil.openCoil.number ∧
    (haulForward n s).coil.openCoil.productId = s.coil.openCoil.productId ∧
    (haulForward n s).coil.openCoil.net = s.coil.openCoil.net ∧
    (haulForward n s).coil.openCoil.start = s.coil.openCoil.start ∧
    (haulForward n s).coil.openCoil.rows = s.coil.openCoil.rows ∧
    (haulForward n s).coil.openCoil.grade = s.coil.openCoil.grade ∧
    (haulForward n s).coil.openCoil.overdue = s.coil.openCoil.overdue ∧
    (haulForward n s).coil.queue = s.coil.queue ∧ (haulForward n s).coil.counter = s.coil.counter ∧
    (haulForward n s).coil.current = s.coil.current ∧ (haulForward n s).coil.next = s.coil.next ∧
    (haulForward n s).coil.pendingTake = s.coil.pendingTake ∧
    (haulForward n s).coil.rejectedFrames = s.coil.rejectedFrames ∧
    (haulForward n s).coil.takeOverruns = s.coil.takeOverruns ∧
    (haulForward n s).coil.nacksNotSent = s.coil.nacksNotSent ∧
    (haulForward n s).coil.refusedChangeovers = s.coil.refusedChangeovers ∧ (haulForward n s).portU = s.portU ∧
    (haulForward n s).portD = s.portD ∧ (haulForward n s).store.fqd = s.store.fqd ∧
    (haulForward n s).store.fqu = s.store.fqu ∧ (haulForward n s).store.latchInFlight = s.store.latchInFlight ∧
    (haulForward n s).store.hold = s.store.hold ∧ (haulForward n s).store.arriving = s.store.arriving ∧
    (haulForward n s).store.reserved = s.store.reserved ∧ (haulForward n s).holdOut = s.holdOut ∧
    (haulForward n s).classifier = s.classifier ∧ (haulForward n s).resetIn = s.resetIn ∧
    (haulForward n s).freeDraws = s.freeDraws ∧ (haulForward n s).pending = s.pending := by
  unfold haulForward
  dsimp only
  split <;> simp

/-- R23. -/
@[simp] theorem haulBack_keeps (m : Nat) (s : State) :
    (haulBack m s).mode = s.mode ∧ (haulBack m s).ownAddress = s.ownAddress ∧ (haulBack m s).tables = s.tables ∧
    (haulBack m s).tally.packedTotal = s.tally.packedTotal ∧ (haulBack m s).tally.coil = s.tally.coil ∧
    (haulBack m s).tally.mark = s.tally.mark ∧ (haulBack m s).tally.window = s.tally.window ∧
    (haulBack m s).tally.windowLength = s.tally.windowLength ∧
    (haulBack m s).tally.haulwatch = s.tally.haulwatch ∧ (haulBack m s).tally.cutwait = s.tally.cutwait ∧
    (haulBack m s).tally.loaded = s.tally.loaded ∧ (haulBack m s).tally.haulTaken = s.tally.haulTaken ∧
    (haulBack m s).tally.shortHaul = s.tally.shortHaul ∧ (haulBack m s).lay = s.lay ∧
    (haulBack m s).mesh = s.mesh ∧ (haulBack m s).coil.openCoil.number = s.coil.openCoil.number ∧
    (haulBack m s).coil.openCoil.productId = s.coil.openCoil.productId ∧
    (haulBack m s).coil.openCoil.net = s.coil.openCoil.net ∧
    (haulBack m s).coil.openCoil.state = s.coil.openCoil.state ∧
    (haulBack m s).coil.openCoil.start = s.coil.openCoil.start ∧
    (haulBack m s).coil.openCoil.rows = s.coil.openCoil.rows ∧
    (haulBack m s).coil.openCoil.worstDeviation = s.coil.openCoil.worstDeviation ∧
    (haulBack m s).coil.openCoil.driftWindows = s.coil.openCoil.driftWindows ∧
    (haulBack m s).coil.openCoil.defects = s.coil.openCoil.defects ∧
    (haulBack m s).coil.openCoil.overflow = s.coil.openCoil.overflow ∧
    (haulBack m s).coil.openCoil.overflowPoints = s.coil.openCoil.overflowPoints ∧
    (haulBack m s).coil.openCoil.points = s.coil.openCoil.points ∧
    (haulBack m s).coil.openCoil.grade = s.coil.openCoil.grade ∧
    (haulBack m s).coil.openCoil.cutLag = s.coil.openCoil.cutLag ∧
    (haulBack m s).coil.openCoil.overdue = s.coil.openCoil.overdue ∧
    (haulBack m s).coil.openCoil.overlengthNoted = s.coil.openCoil.overlengthNoted ∧
    (haulBack m s).coil.queue = s.coil.queue ∧ (haulBack m s).coil.counter = s.coil.counter ∧
    (haulBack m s).coil.current = s.coil.current ∧ (haulBack m s).coil.next = s.coil.next ∧
    (haulBack m s).coil.pendingTake = s.coil.pendingTake ∧
    (haulBack m s).coil.rejectedFrames = s.coil.rejectedFrames ∧
    (haulBack m s).coil.marksMissed = s.coil.marksMissed ∧
    (haulBack m s).coil.takeOverruns = s.coil.takeOverruns ∧
    (haulBack m s).coil.nacksNotSent = s.coil.nacksNotSent ∧
    (haulBack m s).coil.refusedChangeovers = s.coil.refusedChangeovers ∧ (haulBack m s).faults = s.faults ∧
    (haulBack m s).portU = s.portU ∧ (haulBack m s).portD = s.portD ∧ (haulBack m s).store = s.store ∧
    (haulBack m s).holdOut = s.holdOut ∧ (haulBack m s).classifier = s.classifier ∧
    (haulBack m s).resetIn = s.resetIn ∧ (haulBack m s).freeDraws = s.freeDraws ∧
    (haulBack m s).pending = s.pending := by
  simp [haulBack]

/-- R20 steps 2 to 4. -/
@[simp] theorem applyIncrement_keeps (i : Int) (s : State) :
    (applyIncrement i s).ownAddress = s.ownAddress ∧ (applyIncrement i s).tables = s.tables ∧
    (applyIncrement i s).tally.packedTotal = s.tally.packedTotal ∧
    (applyIncrement i s).tally.cutwait = s.tally.cutwait ∧ (applyIncrement i s).tally.loaded = s.tally.loaded ∧
    (applyIncrement i s).tally.haulTaken = s.tally.haulTaken ∧
    (applyIncrement i s).tally.shortHaul = s.tally.shortHaul ∧
    (applyIncrement i s).lay.rejectedTurns = s.lay.rejectedTurns ∧
    (applyIncrement i s).lay.ignoredTurns = s.lay.ignoredTurns ∧ (applyIncrement i s).mesh = s.mesh ∧
    (applyIncrement i s).coil.openCoil.number = s.coil.openCoil.number ∧
    (applyIncrement i s).coil.openCoil.productId = s.coil.openCoil.productId ∧
    (applyIncrement i s).coil.openCoil.net = s.coil.openCoil.net ∧
    (applyIncrement i s).coil.openCoil.start = s.coil.openCoil.start ∧
    (applyIncrement i s).coil.openCoil.rows = s.coil.openCoil.rows ∧
    (applyIncrement i s).coil.openCoil.grade = s.coil.openCoil.grade ∧
    (applyIncrement i s).coil.openCoil.overdue = s.coil.openCoil.overdue ∧
    (applyIncrement i s).coil.queue = s.coil.queue ∧ (applyIncrement i s).coil.counter = s.coil.counter ∧
    (applyIncrement i s).coil.current = s.coil.current ∧ (applyIncrement i s).coil.next = s.coil.next ∧
    (applyIncrement i s).coil.pendingTake = s.coil.pendingTake ∧
    (applyIncrement i s).coil.rejectedFrames = s.coil.rejectedFrames ∧
    (applyIncrement i s).coil.takeOverruns = s.coil.takeOverruns ∧
    (applyIncrement i s).coil.nacksNotSent = s.coil.nacksNotSent ∧
    (applyIncrement i s).coil.refusedChangeovers = s.coil.refusedChangeovers ∧
    (applyIncrement i s).portU = s.portU ∧ (applyIncrement i s).portD = s.portD ∧
    (applyIncrement i s).store.fqd = s.store.fqd ∧ (applyIncrement i s).store.fqu = s.store.fqu ∧
    (applyIncrement i s).store.latchInFlight = s.store.latchInFlight ∧
    (applyIncrement i s).store.hold = s.store.hold ∧ (applyIncrement i s).store.arriving = s.store.arriving ∧
    (applyIncrement i s).store.reserved = s.store.reserved ∧ (applyIncrement i s).holdOut = s.holdOut ∧
    (applyIncrement i s).classifier = s.classifier ∧ (applyIncrement i s).resetIn = s.resetIn ∧
    (applyIncrement i s).freeDraws = s.freeDraws ∧ (applyIncrement i s).pending = s.pending := by
  unfold applyIncrement
  try dsimp only
  repeat' split
  all_goals simp

/-- R20 step 1. -/
@[simp] theorem haulHeard_keeps (i : Int) (s : State) :
    (haulHeard i s).mode = s.mode ∧ (haulHeard i s).ownAddress = s.ownAddress ∧
    (haulHeard i s).tables = s.tables ∧ (haulHeard i s).tally.haulTotal = s.tally.haulTotal ∧
    (haulHeard i s).tally.packedTotal = s.tally.packedTotal ∧ (haulHeard i s).tally.coil = s.tally.coil ∧
    (haulHeard i s).tally.mark = s.tally.mark ∧ (haulHeard i s).tally.window = s.tally.window ∧
    (haulHeard i s).tally.windowLength = s.tally.windowLength ∧
    (haulHeard i s).tally.cutwait = s.tally.cutwait ∧ (haulHeard i s).tally.loaded = s.tally.loaded ∧
    (haulHeard i s).tally.haulTaken = s.tally.haulTaken ∧ (haulHeard i s).tally.shortHaul = s.tally.shortHaul ∧
    (haulHeard i s).tally.clippedHaul = s.tally.clippedHaul ∧ (haulHeard i s).lay = s.lay ∧
    (haulHeard i s).mesh = s.mesh ∧ (haulHeard i s).coil = s.coil ∧ (haulHeard i s).faults = s.faults ∧
    (haulHeard i s).portU = s.portU ∧ (haulHeard i s).portD = s.portD ∧ (haulHeard i s).store = s.store ∧
    (haulHeard i s).holdOut = s.holdOut ∧ (haulHeard i s).classifier = s.classifier ∧
    (haulHeard i s).resetIn = s.resetIn ∧ (haulHeard i s).freeDraws = s.freeDraws ∧
    (haulHeard i s).pending = s.pending := by
  unfold haulHeard
  try dsimp only
  repeat' split
  all_goals simp

/-- R20. -/
@[simp] theorem haulReceived_keeps (payload : List Byte) (s : State) :
    (haulReceived payload s).ownAddress = s.ownAddress ∧ (haulReceived payload s).tables = s.tables ∧
    (haulReceived payload s).tally.packedTotal = s.tally.packedTotal ∧
    (haulReceived payload s).tally.cutwait = s.tally.cutwait ∧
    (haulReceived payload s).tally.loaded = s.tally.loaded ∧
    (haulReceived payload s).lay.rejectedTurns = s.lay.rejectedTurns ∧
    (haulReceived payload s).lay.ignoredTurns = s.lay.ignoredTurns ∧ (haulReceived payload s).mesh = s.mesh ∧
    (haulReceived payload s).coil.openCoil.number = s.coil.openCoil.number ∧
    (haulReceived payload s).coil.openCoil.productId = s.coil.openCoil.productId ∧
    (haulReceived payload s).coil.openCoil.net = s.coil.openCoil.net ∧
    (haulReceived payload s).coil.openCoil.start = s.coil.openCoil.start ∧
    (haulReceived payload s).coil.openCoil.rows = s.coil.openCoil.rows ∧
    (haulReceived payload s).coil.openCoil.grade = s.coil.openCoil.grade ∧
    (haulReceived payload s).coil.openCoil.overdue = s.coil.openCoil.overdue ∧
    (haulReceived payload s).coil.queue = s.coil.queue ∧
    (haulReceived payload s).coil.counter = s.coil.counter ∧
    (haulReceived payload s).coil.current = s.coil.current ∧ (haulReceived payload s).coil.next = s.coil.next ∧
    (haulReceived payload s).coil.pendingTake = s.coil.pendingTake ∧
    (haulReceived payload s).coil.rejectedFrames = s.coil.rejectedFrames ∧
    (haulReceived payload s).coil.takeOverruns = s.coil.takeOverruns ∧
    (haulReceived payload s).coil.nacksNotSent = s.coil.nacksNotSent ∧
    (haulReceived payload s).coil.refusedChangeovers = s.coil.refusedChangeovers ∧
    (haulReceived payload s).portU = s.portU ∧ (haulReceived payload s).portD = s.portD ∧
    (haulReceived payload s).store.fqd = s.store.fqd ∧ (haulReceived payload s).store.fqu = s.store.fqu ∧
    (haulReceived payload s).store.latchInFlight = s.store.latchInFlight ∧
    (haulReceived payload s).store.hold = s.store.hold ∧
    (haulReceived payload s).store.arriving = s.store.arriving ∧
    (haulReceived payload s).store.reserved = s.store.reserved ∧ (haulReceived payload s).holdOut = s.holdOut ∧
    (haulReceived payload s).classifier = s.classifier ∧ (haulReceived payload s).resetIn = s.resetIn ∧
    (haulReceived payload s).freeDraws = s.freeDraws ∧ (haulReceived payload s).pending = s.pending := by
  unfold haulReceived
  dsimp only
  split <;> simp

/-- R32. -/
@[simp] theorem haulSilent_keeps (s : State) :
    (haulSilent s).ownAddress = s.ownAddress ∧ (haulSilent s).tables = s.tables ∧
    (haulSilent s).tally.haulTotal = s.tally.haulTotal ∧
    (haulSilent s).tally.packedTotal = s.tally.packedTotal ∧ (haulSilent s).tally.coil = s.tally.coil ∧
    (haulSilent s).tally.mark = s.tally.mark ∧ (haulSilent s).tally.window = s.tally.window ∧
    (haulSilent s).tally.windowLength = s.tally.windowLength ∧ (haulSilent s).tally.cutwait = s.tally.cutwait ∧
    (haulSilent s).tally.loaded = s.tally.loaded ∧ (haulSilent s).tally.haulTaken = s.tally.haulTaken ∧
    (haulSilent s).tally.shortHaul = s.tally.shortHaul ∧
    (haulSilent s).tally.clippedHaul = s.tally.clippedHaul ∧ (haulSilent s).lay = s.lay ∧
    (haulSilent s).mesh = s.mesh ∧ (haulSilent s).coil.openCoil.number = s.coil.openCoil.number ∧
    (haulSilent s).coil.openCoil.productId = s.coil.openCoil.productId ∧
    (haulSilent s).coil.openCoil.net = s.coil.openCoil.net ∧
    (haulSilent s).coil.openCoil.state = s.coil.openCoil.state ∧
    (haulSilent s).coil.openCoil.length = s.coil.openCoil.length ∧
    (haulSilent s).coil.openCoil.start = s.coil.openCoil.start ∧
    (haulSilent s).coil.openCoil.rows = s.coil.openCoil.rows ∧
    (haulSilent s).coil.openCoil.worstDeviation = s.coil.openCoil.worstDeviation ∧
    (haulSilent s).coil.openCoil.driftWindows = s.coil.openCoil.driftWindows ∧
    (haulSilent s).coil.openCoil.grade = s.coil.openCoil.grade ∧
    (haulSilent s).coil.openCoil.cutLag = s.coil.openCoil.cutLag ∧
    (haulSilent s).coil.openCoil.overdue = s.coil.openCoil.overdue ∧
    (haulSilent s).coil.openCoil.overlengthNoted = s.coil.openCoil.overlengthNoted ∧
    (haulSilent s).coil.queue = s.coil.queue ∧ (haulSilent s).coil.counter = s.coil.counter ∧
    (haulSilent s).coil.current = s.coil.current ∧ (haulSilent s).coil.next = s.coil.next ∧
    (haulSilent s).coil.pendingTake = s.coil.pendingTake ∧
    (haulSilent s).coil.rejectedFrames = s.coil.rejectedFrames ∧
    (haulSilent s).coil.marksMissed = s.coil.marksMissed ∧
    (haulSilent s).coil.takeOverruns = s.coil.takeOverruns ∧
    (haulSilent s).coil.nacksNotSent = s.coil.nacksNotSent ∧
    (haulSilent s).coil.refusedChangeovers = s.coil.refusedChangeovers ∧ (haulSilent s).portU = s.portU ∧
    (haulSilent s).portD = s.portD ∧ (haulSilent s).store.fqd = s.store.fqd ∧
    (haulSilent s).store.fqu = s.store.fqu ∧ (haulSilent s).store.iqd = s.store.iqd ∧
    (haulSilent s).store.latchInFlight = s.store.latchInFlight ∧ (haulSilent s).store.hold = s.store.hold ∧
    (haulSilent s).store.arriving = s.store.arriving ∧ (haulSilent s).store.reserved = s.store.reserved ∧
    (haulSilent s).holdOut = s.holdOut ∧ (haulSilent s).classifier = s.classifier ∧
    (haulSilent s).resetIn = s.resetIn ∧ (haulSilent s).freeDraws = s.freeDraws ∧
    (haulSilent s).pending = s.pending := by
  simp [haulSilent]

/-- R31. -/
@[simp] theorem handExpiries_keeps (watch wait : Bool) (s : State) :
    (handExpiries watch wait s).ownAddress = s.ownAddress ∧ (handExpiries watch wait s).tables = s.tables ∧
    (handExpiries watch wait s).tally.haulTotal = s.tally.haulTotal ∧
    (handExpiries watch wait s).tally.packedTotal = s.tally.packedTotal ∧
    (handExpiries watch wait s).tally.coil = s.tally.coil ∧
    (handExpiries watch wait s).tally.mark = s.tally.mark ∧
    (handExpiries watch wait s).tally.window = s.tally.window ∧
    (handExpiries watch wait s).tally.windowLength = s.tally.windowLength ∧
    (handExpiries watch wait s).tally.cutwait = s.tally.cutwait ∧
    (handExpiries watch wait s).tally.loaded = s.tally.loaded ∧
    (handExpiries watch wait s).tally.haulTaken = s.tally.haulTaken ∧
    (handExpiries watch wait s).tally.shortHaul = s.tally.shortHaul ∧
    (handExpiries watch wait s).tally.clippedHaul = s.tally.clippedHaul ∧
    (handExpiries watch wait s).lay = s.lay ∧ (handExpiries watch wait s).mesh = s.mesh ∧
    (handExpiries watch wait s).coil.openCoil.number = s.coil.openCoil.number ∧
    (handExpiries watch wait s).coil.openCoil.productId = s.coil.openCoil.productId ∧
    (handExpiries watch wait s).coil.openCoil.net = s.coil.openCoil.net ∧
    (handExpiries watch wait s).coil.openCoil.length = s.coil.openCoil.length ∧
    (handExpiries watch wait s).coil.openCoil.start = s.coil.openCoil.start ∧
    (handExpiries watch wait s).coil.openCoil.rows = s.coil.openCoil.rows ∧
    (handExpiries watch wait s).coil.openCoil.worstDeviation = s.coil.openCoil.worstDeviation ∧
    (handExpiries watch wait s).coil.openCoil.driftWindows = s.coil.openCoil.driftWindows ∧
    (handExpiries watch wait s).coil.openCoil.grade = s.coil.openCoil.grade ∧
    (handExpiries watch wait s).coil.openCoil.cutLag = s.coil.openCoil.cutLag ∧
    (handExpiries watch wait s).coil.queue = s.coil.queue ∧
    (handExpiries watch wait s).coil.counter = s.coil.counter ∧
    (handExpiries watch wait s).coil.current = s.coil.current ∧
    (handExpiries watch wait s).coil.next = s.coil.next ∧
    (handExpiries watch wait s).coil.pendingTake = s.coil.pendingTake ∧
    (handExpiries watch wait s).coil.rejectedFrames = s.coil.rejectedFrames ∧
    (handExpiries watch wait s).coil.marksMissed = s.coil.marksMissed ∧
    (handExpiries watch wait s).coil.takeOverruns = s.coil.takeOverruns ∧
    (handExpiries watch wait s).coil.nacksNotSent = s.coil.nacksNotSent ∧
    (handExpiries watch wait s).coil.refusedChangeovers = s.coil.refusedChangeovers ∧
    (handExpiries watch wait s).portU = s.portU ∧ (handExpiries watch wait s).portD = s.portD ∧
    (handExpiries watch wait s).store.fqd = s.store.fqd ∧ (handExpiries watch wait s).store.fqu = s.store.fqu ∧
    (handExpiries watch wait s).store.iqd = s.store.iqd ∧
    (handExpiries watch wait s).store.latchInFlight = s.store.latchInFlight ∧
    (handExpiries watch wait s).store.hold = s.store.hold ∧
    (handExpiries watch wait s).store.arriving = s.store.arriving ∧
    (handExpiries watch wait s).store.reserved = s.store.reserved ∧
    (handExpiries watch wait s).holdOut = s.holdOut ∧ (handExpiries watch wait s).classifier = s.classifier ∧
    (handExpiries watch wait s).resetIn = s.resetIn ∧ (handExpiries watch wait s).pending = s.pending := by
  unfold handExpiries
  try dsimp only
  repeat' split
  all_goals simp

/-- R31. -/
@[simp] theorem timeBaseExpired_keeps (s : State) :
    (timeBaseExpired s).ownAddress = s.ownAddress ∧ (timeBaseExpired s).tables = s.tables ∧
    (timeBaseExpired s).tally.haulTotal = s.tally.haulTotal ∧
    (timeBaseExpired s).tally.packedTotal = s.tally.packedTotal ∧
    (timeBaseExpired s).tally.coil = s.tally.coil ∧ (timeBaseExpired s).tally.mark = s.tally.mark ∧
    (timeBaseExpired s).tally.window = s.tally.window ∧
    (timeBaseExpired s).tally.windowLength = s.tally.windowLength ∧
    (timeBaseExpired s).tally.loaded = s.tally.loaded ∧
    (timeBaseExpired s).tally.haulTaken = s.tally.haulTaken ∧
    (timeBaseExpired s).tally.shortHaul = s.tally.shortHaul ∧
    (timeBaseExpired s).tally.clippedHaul = s.tally.clippedHaul ∧ (timeBaseExpired s).lay = s.lay ∧
    (timeBaseExpired s).mesh = s.mesh ∧ (timeBaseExpired s).coil.openCoil.number = s.coil.openCoil.number ∧
    (timeBaseExpired s).coil.openCoil.productId = s.coil.openCoil.productId ∧
    (timeBaseExpired s).coil.openCoil.net = s.coil.openCoil.net ∧
    (timeBaseExpired s).coil.openCoil.length = s.coil.openCoil.length ∧
    (timeBaseExpired s).coil.openCoil.start = s.coil.openCoil.start ∧
    (timeBaseExpired s).coil.openCoil.rows = s.coil.openCoil.rows ∧
    (timeBaseExpired s).coil.openCoil.worstDeviation = s.coil.openCoil.worstDeviation ∧
    (timeBaseExpired s).coil.openCoil.driftWindows = s.coil.openCoil.driftWindows ∧
    (timeBaseExpired s).coil.openCoil.grade = s.coil.openCoil.grade ∧
    (timeBaseExpired s).coil.openCoil.cutLag = s.coil.openCoil.cutLag ∧
    (timeBaseExpired s).coil.queue = s.coil.queue ∧ (timeBaseExpired s).coil.counter = s.coil.counter ∧
    (timeBaseExpired s).coil.current = s.coil.current ∧ (timeBaseExpired s).coil.next = s.coil.next ∧
    (timeBaseExpired s).coil.pendingTake = s.coil.pendingTake ∧
    (timeBaseExpired s).coil.rejectedFrames = s.coil.rejectedFrames ∧
    (timeBaseExpired s).coil.marksMissed = s.coil.marksMissed ∧
    (timeBaseExpired s).coil.takeOverruns = s.coil.takeOverruns ∧
    (timeBaseExpired s).coil.nacksNotSent = s.coil.nacksNotSent ∧
    (timeBaseExpired s).coil.refusedChangeovers = s.coil.refusedChangeovers ∧
    (timeBaseExpired s).portU = s.portU ∧ (timeBaseExpired s).portD = s.portD ∧
    (timeBaseExpired s).store.fqd = s.store.fqd ∧ (timeBaseExpired s).store.fqu = s.store.fqu ∧
    (timeBaseExpired s).store.iqd = s.store.iqd ∧
    (timeBaseExpired s).store.latchInFlight = s.store.latchInFlight ∧
    (timeBaseExpired s).store.hold = s.store.hold ∧ (timeBaseExpired s).store.arriving = s.store.arriving ∧
    (timeBaseExpired s).store.reserved = s.store.reserved ∧ (timeBaseExpired s).holdOut = s.holdOut ∧
    (timeBaseExpired s).classifier = s.classifier ∧ (timeBaseExpired s).resetIn = s.resetIn ∧
    (timeBaseExpired s).pending = s.pending := by
  simp [timeBaseExpired]

/-- R32. -/
@[simp] theorem haulwatchUnderflows_keeps (s : State) :
    (haulwatchUnderflows s).ownAddress = s.ownAddress ∧ (haulwatchUnderflows s).tables = s.tables ∧
    (haulwatchUnderflows s).tally.haulTotal = s.tally.haulTotal ∧
    (haulwatchUnderflows s).tally.packedTotal = s.tally.packedTotal ∧
    (haulwatchUnderflows s).tally.coil = s.tally.coil ∧ (haulwatchUnderflows s).tally.mark = s.tally.mark ∧
    (haulwatchUnderflows s).tally.window = s.tally.window ∧
    (haulwatchUnderflows s).tally.windowLength = s.tally.windowLength ∧
    (haulwatchUnderflows s).tally.cutwait = s.tally.cutwait ∧
    (haulwatchUnderflows s).tally.loaded = s.tally.loaded ∧
    (haulwatchUnderflows s).tally.haulTaken = s.tally.haulTaken ∧
    (haulwatchUnderflows s).tally.shortHaul = s.tally.shortHaul ∧
    (haulwatchUnderflows s).tally.clippedHaul = s.tally.clippedHaul ∧ (haulwatchUnderflows s).lay = s.lay ∧
    (haulwatchUnderflows s).mesh = s.mesh ∧
    (haulwatchUnderflows s).coil.openCoil.number = s.coil.openCoil.number ∧
    (haulwatchUnderflows s).coil.openCoil.productId = s.coil.openCoil.productId ∧
    (haulwatchUnderflows s).coil.openCoil.net = s.coil.openCoil.net ∧
    (haulwatchUnderflows s).coil.openCoil.state = s.coil.openCoil.state ∧
    (haulwatchUnderflows s).coil.openCoil.length = s.coil.openCoil.length ∧
    (haulwatchUnderflows s).coil.openCoil.start = s.coil.openCoil.start ∧
    (haulwatchUnderflows s).coil.openCoil.rows = s.coil.openCoil.rows ∧
    (haulwatchUnderflows s).coil.openCoil.worstDeviation = s.coil.openCoil.worstDeviation ∧
    (haulwatchUnderflows s).coil.openCoil.driftWindows = s.coil.openCoil.driftWindows ∧
    (haulwatchUnderflows s).coil.openCoil.grade = s.coil.openCoil.grade ∧
    (haulwatchUnderflows s).coil.openCoil.cutLag = s.coil.openCoil.cutLag ∧
    (haulwatchUnderflows s).coil.openCoil.overdue = s.coil.openCoil.overdue ∧
    (haulwatchUnderflows s).coil.openCoil.overlengthNoted = s.coil.openCoil.overlengthNoted ∧
    (haulwatchUnderflows s).coil.queue = s.coil.queue ∧ (haulwatchUnderflows s).coil.counter = s.coil.counter ∧
    (haulwatchUnderflows s).coil.current = s.coil.current ∧ (haulwatchUnderflows s).coil.next = s.coil.next ∧
    (haulwatchUnderflows s).coil.pendingTake = s.coil.pendingTake ∧
    (haulwatchUnderflows s).coil.rejectedFrames = s.coil.rejectedFrames ∧
    (haulwatchUnderflows s).coil.marksMissed = s.coil.marksMissed ∧
    (haulwatchUnderflows s).coil.takeOverruns = s.coil.takeOverruns ∧
    (haulwatchUnderflows s).coil.nacksNotSent = s.coil.nacksNotSent ∧
    (haulwatchUnderflows s).coil.refusedChangeovers = s.coil.refusedChangeovers ∧
    (haulwatchUnderflows s).portU = s.portU ∧ (haulwatchUnderflows s).portD = s.portD ∧
    (haulwatchUnderflows s).store.fqd = s.store.fqd ∧ (haulwatchUnderflows s).store.fqu = s.store.fqu ∧
    (haulwatchUnderflows s).store.iqd = s.store.iqd ∧
    (haulwatchUnderflows s).store.latchInFlight = s.store.latchInFlight ∧
    (haulwatchUnderflows s).store.hold = s.store.hold ∧
    (haulwatchUnderflows s).store.arriving = s.store.arriving ∧
    (haulwatchUnderflows s).store.reserved = s.store.reserved ∧ (haulwatchUnderflows s).holdOut = s.holdOut ∧
    (haulwatchUnderflows s).classifier = s.classifier ∧ (haulwatchUnderflows s).resetIn = s.resetIn ∧
    (haulwatchUnderflows s).freeDraws = s.freeDraws ∧ (haulwatchUnderflows s).pending = s.pending := by
  unfold haulwatchUnderflows
  try dsimp only
  repeat' split
  all_goals simp

/-- R33, R100. -/
@[simp] theorem cutwaitUnderflows_keeps (s : State) :
    (cutwaitUnderflows s).ownAddress = s.ownAddress ∧ (cutwaitUnderflows s).tables = s.tables ∧
    (cutwaitUnderflows s).tally.haulTotal = s.tally.haulTotal ∧
    (cutwaitUnderflows s).tally.packedTotal = s.tally.packedTotal ∧
    (cutwaitUnderflows s).tally.coil = s.tally.coil ∧ (cutwaitUnderflows s).tally.mark = s.tally.mark ∧
    (cutwaitUnderflows s).tally.window = s.tally.window ∧
    (cutwaitUnderflows s).tally.windowLength = s.tally.windowLength ∧
    (cutwaitUnderflows s).tally.loaded = s.tally.loaded ∧
    (cutwaitUnderflows s).tally.haulTaken = s.tally.haulTaken ∧
    (cutwaitUnderflows s).tally.shortHaul = s.tally.shortHaul ∧
    (cutwaitUnderflows s).tally.clippedHaul = s.tally.clippedHaul ∧ (cutwaitUnderflows s).lay = s.lay ∧
    (cutwaitUnderflows s).mesh = s.mesh ∧ (cutwaitUnderflows s).coil.openCoil.number = s.coil.openCoil.number ∧
    (cutwaitUnderflows s).coil.openCoil.productId = s.coil.openCoil.productId ∧
    (cutwaitUnderflows s).coil.openCoil.net = s.coil.openCoil.net ∧
    (cutwaitUnderflows s).coil.openCoil.length = s.coil.openCoil.length ∧
    (cutwaitUnderflows s).coil.openCoil.start = s.coil.openCoil.start ∧
    (cutwaitUnderflows s).coil.openCoil.rows = s.coil.openCoil.rows ∧
    (cutwaitUnderflows s).coil.openCoil.worstDeviation = s.coil.openCoil.worstDeviation ∧
    (cutwaitUnderflows s).coil.openCoil.driftWindows = s.coil.openCoil.driftWindows ∧
    (cutwaitUnderflows s).coil.openCoil.grade = s.coil.openCoil.grade ∧
    (cutwaitUnderflows s).coil.openCoil.cutLag = s.coil.openCoil.cutLag ∧
    (cutwaitUnderflows s).coil.queue = s.coil.queue ∧ (cutwaitUnderflows s).coil.counter = s.coil.counter ∧
    (cutwaitUnderflows s).coil.current = s.coil.current ∧ (cutwaitUnderflows s).coil.next = s.coil.next ∧
    (cutwaitUnderflows s).coil.pendingTake = s.coil.pendingTake ∧
    (cutwaitUnderflows s).coil.rejectedFrames = s.coil.rejectedFrames ∧
    (cutwaitUnderflows s).coil.marksMissed = s.coil.marksMissed ∧
    (cutwaitUnderflows s).coil.takeOverruns = s.coil.takeOverruns ∧
    (cutwaitUnderflows s).coil.nacksNotSent = s.coil.nacksNotSent ∧
    (cutwaitUnderflows s).coil.refusedChangeovers = s.coil.refusedChangeovers ∧
    (cutwaitUnderflows s).portU = s.portU ∧ (cutwaitUnderflows s).portD = s.portD ∧
    (cutwaitUnderflows s).store.fqd = s.store.fqd ∧ (cutwaitUnderflows s).store.fqu = s.store.fqu ∧
    (cutwaitUnderflows s).store.iqd = s.store.iqd ∧
    (cutwaitUnderflows s).store.latchInFlight = s.store.latchInFlight ∧
    (cutwaitUnderflows s).store.hold = s.store.hold ∧ (cutwaitUnderflows s).store.arriving = s.store.arriving ∧
    (cutwaitUnderflows s).store.reserved = s.store.reserved ∧ (cutwaitUnderflows s).holdOut = s.holdOut ∧
    (cutwaitUnderflows s).classifier = s.classifier ∧ (cutwaitUnderflows s).resetIn = s.resetIn ∧
    (cutwaitUnderflows s).freeDraws = s.freeDraws ∧ (cutwaitUnderflows s).pending = s.pending := by
  unfold cutwaitUnderflows
  try dsimp only
  repeat' split
  all_goals simp

end Sys2Proof.Machine
end

