-- ==== Sys2Proof/Laws/Product.lean ====
section
/-! SUPPORT. What product starts, the closing of a coil and the coil open can change. -/

namespace Sys2Proof.Machine

/-- R84, R111. -/
@[simp] theorem setOpenProduct_keeps (s : State) :
    (setOpenProduct s).mode = s.mode ∧ (setOpenProduct s).ownAddress = s.ownAddress ∧
    (setOpenProduct s).tables = s.tables ∧ (setOpenProduct s).tally = s.tally ∧ (setOpenProduct s).lay = s.lay ∧
    (setOpenProduct s).mesh = s.mesh ∧ (setOpenProduct s).coil.openCoil.number = s.coil.openCoil.number ∧
    (setOpenProduct s).coil.openCoil.state = s.coil.openCoil.state ∧
    (setOpenProduct s).coil.openCoil.length = s.coil.openCoil.length ∧
    (setOpenProduct s).coil.openCoil.start = s.coil.openCoil.start ∧
    (setOpenProduct s).coil.openCoil.rows = s.coil.openCoil.rows ∧
    (setOpenProduct s).coil.openCoil.worstDeviation = s.coil.openCoil.worstDeviation ∧
    (setOpenProduct s).coil.openCoil.driftWindows = s.coil.openCoil.driftWindows ∧
    (setOpenProduct s).coil.openCoil.defects = s.coil.openCoil.defects ∧
    (setOpenProduct s).coil.openCoil.overflow = s.coil.openCoil.overflow ∧
    (setOpenProduct s).coil.openCoil.overflowPoints = s.coil.openCoil.overflowPoints ∧
    (setOpenProduct s).coil.openCoil.points = s.coil.openCoil.points ∧
    (setOpenProduct s).coil.openCoil.grade = s.coil.openCoil.grade ∧
    (setOpenProduct s).coil.openCoil.cutLag = s.coil.openCoil.cutLag ∧
    (setOpenProduct s).coil.openCoil.overdue = s.coil.openCoil.overdue ∧
    (setOpenProduct s).coil.openCoil.overlengthNoted = s.coil.openCoil.overlengthNoted ∧
    (setOpenProduct s).coil.queue = s.coil.queue ∧ (setOpenProduct s).coil.counter = s.coil.counter ∧
    (setOpenProduct s).coil.current = s.coil.current ∧ (setOpenProduct s).coil.next = s.coil.next ∧
    (setOpenProduct s).coil.pendingTake = s.coil.pendingTake ∧
    (setOpenProduct s).coil.rejectedFrames = s.coil.rejectedFrames ∧
    (setOpenProduct s).coil.marksMissed = s.coil.marksMissed ∧
    (setOpenProduct s).coil.takeOverruns = s.coil.takeOverruns ∧
    (setOpenProduct s).coil.nacksNotSent = s.coil.nacksNotSent ∧
    (setOpenProduct s).coil.refusedChangeovers = s.coil.refusedChangeovers ∧
    (setOpenProduct s).faults = s.faults ∧ (setOpenProduct s).portU = s.portU ∧
    (setOpenProduct s).portD = s.portD ∧ (setOpenProduct s).store = s.store ∧
    (setOpenProduct s).holdOut = s.holdOut ∧ (setOpenProduct s).classifier = s.classifier ∧
    (setOpenProduct s).resetIn = s.resetIn ∧ (setOpenProduct s).freeDraws = s.freeDraws ∧
    (setOpenProduct s).pending = s.pending := by
  repeat' apply And.intro
  all_goals rfl

/-- R111. -/
@[simp] theorem productStart_keeps (slot : Slot) (s : State) :
    (productStart slot s).ownAddress = s.ownAddress ∧ (productStart slot s).tables = s.tables ∧
    (productStart slot s).tally.haulTotal = s.tally.haulTotal ∧
    (productStart slot s).tally.packedTotal = s.tally.packedTotal ∧
    (productStart slot s).tally.cutwait = s.tally.cutwait ∧
    (productStart slot s).tally.haulTaken = s.tally.haulTaken ∧
    (productStart slot s).tally.shortHaul = s.tally.shortHaul ∧
    (productStart slot s).tally.clippedHaul = s.tally.clippedHaul ∧
    (productStart slot s).lay.rejectedTurns = s.lay.rejectedTurns ∧
    (productStart slot s).lay.ignoredTurns = s.lay.ignoredTurns ∧
    (productStart slot s).coil.openCoil.number = s.coil.openCoil.number ∧
    (productStart slot s).coil.openCoil.length = s.coil.openCoil.length ∧
    (productStart slot s).coil.openCoil.start = s.coil.openCoil.start ∧
    (productStart slot s).coil.openCoil.rows = s.coil.openCoil.rows ∧
    (productStart slot s).coil.openCoil.worstDeviation = s.coil.openCoil.worstDeviation ∧
    (productStart slot s).coil.openCoil.driftWindows = s.coil.openCoil.driftWindows ∧
    (productStart slot s).coil.openCoil.grade = s.coil.openCoil.grade ∧
    (productStart slot s).coil.openCoil.overdue = s.coil.openCoil.overdue ∧
    (productStart slot s).coil.openCoil.overlengthNoted = s.coil.openCoil.overlengthNoted ∧
    (productStart slot s).coil.queue = s.coil.queue ∧ (productStart slot s).coil.counter = s.coil.counter ∧
    (productStart slot s).coil.next = s.coil.next ∧
    (productStart slot s).coil.pendingTake = s.coil.pendingTake ∧
    (productStart slot s).coil.rejectedFrames = s.coil.rejectedFrames ∧
    (productStart slot s).coil.marksMissed = s.coil.marksMissed ∧
    (productStart slot s).coil.takeOverruns = s.coil.takeOverruns ∧
    (productStart slot s).coil.nacksNotSent = s.coil.nacksNotSent ∧
    (productStart slot s).coil.refusedChangeovers = s.coil.refusedChangeovers ∧
    (productStart slot s).portU = s.portU ∧ (productStart slot s).portD = s.portD ∧
    (productStart slot s).store.fqd = s.store.fqd ∧ (productStart slot s).store.fqu = s.store.fqu ∧
    (productStart slot s).store.latchInFlight = s.store.latchInFlight ∧
    (productStart slot s).store.hold = s.store.hold ∧ (productStart slot s).store.arriving = s.store.arriving ∧
    (productStart slot s).store.reserved = s.store.reserved ∧ (productStart slot s).holdOut = s.holdOut ∧
    (productStart slot s).classifier = s.classifier ∧ (productStart slot s).resetIn = s.resetIn ∧
    (productStart slot s).freeDraws = s.freeDraws ∧ (productStart slot s).pending = s.pending := by
  simp [productStart]

/-- R98. -/
@[simp] theorem closeOpenCoil_keeps (cut : Nat) (s : State) :
    (closeOpenCoil cut s).mode = s.mode ∧ (closeOpenCoil cut s).ownAddress = s.ownAddress ∧
    (closeOpenCoil cut s).tables = s.tables ∧ (closeOpenCoil cut s).tally.haulTotal = s.tally.haulTotal ∧
    (closeOpenCoil cut s).tally.packedTotal = s.tally.packedTotal ∧
    (closeOpenCoil cut s).tally.coil = s.tally.coil ∧ (closeOpenCoil cut s).tally.mark = s.tally.mark ∧
    (closeOpenCoil cut s).tally.window = s.tally.window ∧
    (closeOpenCoil cut s).tally.windowLength = s.tally.windowLength ∧
    (closeOpenCoil cut s).tally.haulwatch = s.tally.haulwatch ∧
    (closeOpenCoil cut s).tally.loaded = s.tally.loaded ∧
    (closeOpenCoil cut s).tally.haulTaken = s.tally.haulTaken ∧
    (closeOpenCoil cut s).tally.shortHaul = s.tally.shortHaul ∧
    (closeOpenCoil cut s).tally.clippedHaul = s.tally.clippedHaul ∧ (closeOpenCoil cut s).lay = s.lay ∧
    (closeOpenCoil cut s).mesh = s.mesh ∧ (closeOpenCoil cut s).coil.openCoil = s.coil.openCoil ∧
    (closeOpenCoil cut s).coil.counter = s.coil.counter ∧ (closeOpenCoil cut s).coil.current = s.coil.current ∧
    (closeOpenCoil cut s).coil.next = s.coil.next ∧
    (closeOpenCoil cut s).coil.rejectedFrames = s.coil.rejectedFrames ∧
    (closeOpenCoil cut s).coil.marksMissed = s.coil.marksMissed ∧
    (closeOpenCoil cut s).coil.takeOverruns = s.coil.takeOverruns ∧
    (closeOpenCoil cut s).coil.nacksNotSent = s.coil.nacksNotSent ∧
    (closeOpenCoil cut s).coil.refusedChangeovers = s.coil.refusedChangeovers ∧
    (closeOpenCoil cut s).faults = s.faults ∧ (closeOpenCoil cut s).portU = s.portU ∧
    (closeOpenCoil cut s).portD = s.portD ∧ (closeOpenCoil cut s).store.fqd = s.store.fqd ∧
    (closeOpenCoil cut s).store.fqu = s.store.fqu ∧ (closeOpenCoil cut s).store.iqu = s.store.iqu ∧
    (closeOpenCoil cut s).store.latchPending = s.store.latchPending ∧
    (closeOpenCoil cut s).store.latchInFlight = s.store.latchInFlight ∧
    (closeOpenCoil cut s).store.hold = s.store.hold ∧ (closeOpenCoil cut s).store.arriving = s.store.arriving ∧
    (closeOpenCoil cut s).store.reserved = s.store.reserved ∧ (closeOpenCoil cut s).holdOut = s.holdOut ∧
    (closeOpenCoil cut s).classifier = s.classifier ∧ (closeOpenCoil cut s).resetIn = s.resetIn ∧
    (closeOpenCoil cut s).freeDraws = s.freeDraws ∧ (closeOpenCoil cut s).pending = s.pending := by
  simp [closeOpenCoil]

/-- R99 steps 1 and 2. -/
@[simp] theorem makeOpenCoil_keeps (length : Nat) (s : State) :
    (makeOpenCoil length s).mode = s.mode ∧ (makeOpenCoil length s).ownAddress = s.ownAddress ∧
    (makeOpenCoil length s).tables = s.tables ∧ (makeOpenCoil length s).tally = s.tally ∧
    (makeOpenCoil length s).lay = s.lay ∧ (makeOpenCoil length s).mesh = s.mesh ∧
    (makeOpenCoil length s).coil.queue = s.coil.queue ∧ (makeOpenCoil length s).coil.current = s.coil.current ∧
    (makeOpenCoil length s).coil.next = s.coil.next ∧
    (makeOpenCoil length s).coil.pendingTake = s.coil.pendingTake ∧
    (makeOpenCoil length s).coil.rejectedFrames = s.coil.rejectedFrames ∧
    (makeOpenCoil length s).coil.marksMissed = s.coil.marksMissed ∧
    (makeOpenCoil length s).coil.takeOverruns = s.coil.takeOverruns ∧
    (makeOpenCoil length s).coil.nacksNotSent = s.coil.nacksNotSent ∧
    (makeOpenCoil length s).coil.refusedChangeovers = s.coil.refusedChangeovers ∧
    (makeOpenCoil length s).faults = s.faults ∧ (makeOpenCoil length s).portU = s.portU ∧
    (makeOpenCoil length s).portD = s.portD ∧ (makeOpenCoil length s).store = s.store ∧
    (makeOpenCoil length s).holdOut = s.holdOut ∧ (makeOpenCoil length s).classifier = s.classifier ∧
    (makeOpenCoil length s).resetIn = s.resetIn ∧ (makeOpenCoil length s).freeDraws = s.freeDraws ∧
    (makeOpenCoil length s).pending = s.pending := by
  repeat' apply And.intro
  all_goals rfl

/-- R116. -/
@[simp] theorem applyChangeover_keeps (slot : Slot) (s : State) :
    (applyChangeover slot s).mode = s.mode ∧ (applyChangeover slot s).ownAddress = s.ownAddress ∧
    (applyChangeover slot s).tables = s.tables ∧ (applyChangeover slot s).tally = s.tally ∧
    (applyChangeover slot s).lay.rejectedTurns = s.lay.rejectedTurns ∧
    (applyChangeover slot s).lay.ignoredTurns = s.lay.ignoredTurns ∧
    (applyChangeover slot s).coil.openCoil.number = s.coil.openCoil.number ∧
    (applyChangeover slot s).coil.openCoil.state = s.coil.openCoil.state ∧
    (applyChangeover slot s).coil.openCoil.length = s.coil.openCoil.length ∧
    (applyChangeover slot s).coil.openCoil.start = s.coil.openCoil.start ∧
    (applyChangeover slot s).coil.openCoil.rows = s.coil.openCoil.rows ∧
    (applyChangeover slot s).coil.openCoil.worstDeviation = s.coil.openCoil.worstDeviation ∧
    (applyChangeover slot s).coil.openCoil.driftWindows = s.coil.openCoil.driftWindows ∧
    (applyChangeover slot s).coil.openCoil.defects = s.coil.openCoil.defects ∧
    (applyChangeover slot s).coil.openCoil.overflow = s.coil.openCoil.overflow ∧
    (applyChangeover slot s).coil.openCoil.overflowPoints = s.coil.openCoil.overflowPoints ∧
    (applyChangeover slot s).coil.openCoil.points = s.coil.openCoil.points ∧
    (applyChangeover slot s).coil.openCoil.grade = s.coil.openCoil.grade ∧
    (applyChangeover slot s).coil.openCoil.cutLag = s.coil.openCoil.cutLag ∧
    (applyChangeover slot s).coil.openCoil.overdue = s.coil.openCoil.overdue ∧
    (applyChangeover slot s).coil.openCoil.overlengthNoted = s.coil.openCoil.overlengthNoted ∧
    (applyChangeover slot s).coil.queue = s.coil.queue ∧
    (applyChangeover slot s).coil.counter = s.coil.counter ∧
    (applyChangeover slot s).coil.pendingTake = s.coil.pendingTake ∧
    (applyChangeover slot s).coil.rejectedFrames = s.coil.rejectedFrames ∧
    (applyChangeover slot s).coil.marksMissed = s.coil.marksMissed ∧
    (applyChangeover slot s).coil.takeOverruns = s.coil.takeOverruns ∧
    (applyChangeover slot s).coil.nacksNotSent = s.coil.nacksNotSent ∧
    (applyChangeover slot s).coil.refusedChangeovers = s.coil.refusedChangeovers ∧
    (applyChangeover slot s).faults = s.faults ∧ (applyChangeover slot s).portU = s.portU ∧
    (applyChangeover slot s).portD = s.portD ∧ (applyChangeover slot s).store = s.store ∧
    (applyChangeover slot s).holdOut = s.holdOut ∧ (applyChangeover slot s).classifier = s.classifier ∧
    (applyChangeover slot s).resetIn = s.resetIn ∧ (applyChangeover slot s).freeDraws = s.freeDraws ∧
    (applyChangeover slot s).pending = s.pending := by
  simp [applyChangeover]

/-- R115. -/
@[simp] theorem refuseChangeover_keeps (s : State) :
    (refuseChangeover s).mode = s.mode ∧ (refuseChangeover s).ownAddress = s.ownAddress ∧
    (refuseChangeover s).tables = s.tables ∧ (refuseChangeover s).tally = s.tally ∧
    (refuseChangeover s).lay = s.lay ∧ (refuseChangeover s).mesh = s.mesh ∧
    (refuseChangeover s).coil.openCoil.number = s.coil.openCoil.number ∧
    (refuseChangeover s).coil.openCoil.state = s.coil.openCoil.state ∧
    (refuseChangeover s).coil.openCoil.length = s.coil.openCoil.length ∧
    (refuseChangeover s).coil.openCoil.start = s.coil.openCoil.start ∧
    (refuseChangeover s).coil.openCoil.rows = s.coil.openCoil.rows ∧
    (refuseChangeover s).coil.openCoil.worstDeviation = s.coil.openCoil.worstDeviation ∧
    (refuseChangeover s).coil.openCoil.driftWindows = s.coil.openCoil.driftWindows ∧
    (refuseChangeover s).coil.openCoil.defects = s.coil.openCoil.defects ∧
    (refuseChangeover s).coil.openCoil.overflow = s.coil.openCoil.overflow ∧
    (refuseChangeover s).coil.openCoil.overflowPoints = s.coil.openCoil.overflowPoints ∧
    (refuseChangeover s).coil.openCoil.points = s.coil.openCoil.points ∧
    (refuseChangeover s).coil.openCoil.grade = s.coil.openCoil.grade ∧
    (refuseChangeover s).coil.openCoil.cutLag = s.coil.openCoil.cutLag ∧
    (refuseChangeover s).coil.openCoil.overdue = s.coil.openCoil.overdue ∧
    (refuseChangeover s).coil.openCoil.overlengthNoted = s.coil.openCoil.overlengthNoted ∧
    (refuseChangeover s).coil.queue = s.coil.queue ∧ (refuseChangeover s).coil.counter = s.coil.counter ∧
    (refuseChangeover s).coil.current = s.coil.current ∧
    (refuseChangeover s).coil.pendingTake = s.coil.pendingTake ∧
    (refuseChangeover s).coil.rejectedFrames = s.coil.rejectedFrames ∧
    (refuseChangeover s).coil.marksMissed = s.coil.marksMissed ∧
    (refuseChangeover s).coil.takeOverruns = s.coil.takeOverruns ∧
    (refuseChangeover s).coil.nacksNotSent = s.coil.nacksNotSent ∧ (refuseChangeover s).faults = s.faults ∧
    (refuseChangeover s).portU = s.portU ∧ (refuseChangeover s).portD = s.portD ∧
    (refuseChangeover s).store = s.store ∧ (refuseChangeover s).holdOut = s.holdOut ∧
    (refuseChangeover s).classifier = s.classifier ∧ (refuseChangeover s).resetIn = s.resetIn ∧
    (refuseChangeover s).freeDraws = s.freeDraws ∧ (refuseChangeover s).pending = s.pending := by
  repeat' apply And.intro
  all_goals rfl

/-- R99 step 3. -/
@[simp] theorem chooseProduct_keeps (s : State) :
    (chooseProduct s).mode = s.mode ∧ (chooseProduct s).ownAddress = s.ownAddress ∧
    (chooseProduct s).tables = s.tables ∧ (chooseProduct s).tally = s.tally ∧
    (chooseProduct s).lay.rejectedTurns = s.lay.rejectedTurns ∧
    (chooseProduct s).lay.ignoredTurns = s.lay.ignoredTurns ∧
    (chooseProduct s).coil.openCoil.number = s.coil.openCoil.number ∧
    (chooseProduct s).coil.openCoil.state = s.coil.openCoil.state ∧
    (chooseProduct s).coil.openCoil.length = s.coil.openCoil.length ∧
    (chooseProduct s).coil.openCoil.start = s.coil.openCoil.start ∧
    (chooseProduct s).coil.openCoil.rows = s.coil.openCoil.rows ∧
    (chooseProduct s).coil.openCoil.worstDeviation = s.coil.openCoil.worstDeviation ∧
    (chooseProduct s).coil.openCoil.driftWindows = s.coil.openCoil.driftWindows ∧
    (chooseProduct s).coil.openCoil.defects = s.coil.openCoil.defects ∧
    (chooseProduct s).coil.openCoil.overflow = s.coil.openCoil.overflow ∧
    (chooseProduct s).coil.openCoil.overflowPoints = s.coil.openCoil.overflowPoints ∧
    (chooseProduct s).coil.openCoil.points = s.coil.openCoil.points ∧
    (chooseProduct s).coil.openCoil.grade = s.coil.openCoil.grade ∧
    (chooseProduct s).coil.openCoil.cutLag = s.coil.openCoil.cutLag ∧
    (chooseProduct s).coil.openCoil.overdue = s.coil.openCoil.overdue ∧
    (chooseProduct s).coil.openCoil.overlengthNoted = s.coil.openCoil.overlengthNoted ∧
    (chooseProduct s).coil.queue = s.coil.queue ∧ (chooseProduct s).coil.counter = s.coil.counter ∧
    (chooseProduct s).coil.pendingTake = s.coil.pendingTake ∧
    (chooseProduct s).coil.rejectedFrames = s.coil.rejectedFrames ∧
    (chooseProduct s).coil.marksMissed = s.coil.marksMissed ∧
    (chooseProduct s).coil.takeOverruns = s.coil.takeOverruns ∧
    (chooseProduct s).coil.nacksNotSent = s.coil.nacksNotSent ∧ (chooseProduct s).faults = s.faults ∧
    (chooseProduct s).portU = s.portU ∧ (chooseProduct s).portD = s.portD ∧ (chooseProduct s).store = s.store ∧
    (chooseProduct s).holdOut = s.holdOut ∧ (chooseProduct s).classifier = s.classifier ∧
    (chooseProduct s).resetIn = s.resetIn ∧ (chooseProduct s).freeDraws = s.freeDraws ∧
    (chooseProduct s).pending = s.pending := by
  unfold chooseProduct
  try dsimp only
  repeat' split
  all_goals simp

/-- R99 step 4. -/
@[simp] theorem placeDefects_keeps (l : List Defect) (s : State) :
    (placeDefects l s).mode = s.mode ∧ (placeDefects l s).ownAddress = s.ownAddress ∧
    (placeDefects l s).tables = s.tables ∧ (placeDefects l s).tally = s.tally ∧ (placeDefects l s).lay = s.lay ∧
    (placeDefects l s).mesh = s.mesh ∧ (placeDefects l s).coil.openCoil.number = s.coil.openCoil.number ∧
    (placeDefects l s).coil.openCoil.productId = s.coil.openCoil.productId ∧
    (placeDefects l s).coil.openCoil.net = s.coil.openCoil.net ∧
    (placeDefects l s).coil.openCoil.state = s.coil.openCoil.state ∧
    (placeDefects l s).coil.openCoil.length = s.coil.openCoil.length ∧
    (placeDefects l s).coil.openCoil.start = s.coil.openCoil.start ∧
    (placeDefects l s).coil.openCoil.rows = s.coil.openCoil.rows ∧
    (placeDefects l s).coil.openCoil.worstDeviation = s.coil.openCoil.worstDeviation ∧
    (placeDefects l s).coil.openCoil.driftWindows = s.coil.openCoil.driftWindows ∧
    (placeDefects l s).coil.openCoil.overflow = s.coil.openCoil.overflow ∧
    (placeDefects l s).coil.openCoil.overflowPoints = s.coil.openCoil.overflowPoints ∧
    (placeDefects l s).coil.openCoil.grade = s.coil.openCoil.grade ∧
    (placeDefects l s).coil.openCoil.cutLag = s.coil.openCoil.cutLag ∧
    (placeDefects l s).coil.openCoil.overdue = s.coil.openCoil.overdue ∧
    (placeDefects l s).coil.openCoil.overlengthNoted = s.coil.openCoil.overlengthNoted ∧
    (placeDefects l s).coil.queue = s.coil.queue ∧ (placeDefects l s).coil.counter = s.coil.counter ∧
    (placeDefects l s).coil.current = s.coil.current ∧ (placeDefects l s).coil.next = s.coil.next ∧
    (placeDefects l s).coil.pendingTake = s.coil.pendingTake ∧
    (placeDefects l s).coil.rejectedFrames = s.coil.rejectedFrames ∧
    (placeDefects l s).coil.marksMissed = s.coil.marksMissed ∧
    (placeDefects l s).coil.takeOverruns = s.coil.takeOverruns ∧
    (placeDefects l s).coil.nacksNotSent = s.coil.nacksNotSent ∧
    (placeDefects l s).coil.refusedChangeovers = s.coil.refusedChangeovers ∧
    (placeDefects l s).faults = s.faults ∧ (placeDefects l s).portU = s.portU ∧
    (placeDefects l s).portD = s.portD ∧ (placeDefects l s).store = s.store ∧
    (placeDefects l s).holdOut = s.holdOut ∧ (placeDefects l s).classifier = s.classifier ∧
    (placeDefects l s).resetIn = s.resetIn ∧ (placeDefects l s).freeDraws = s.freeDraws ∧
    (placeDefects l s).pending = s.pending := by
  repeat' apply And.intro
  all_goals rfl

/-- R99 step 5. -/
@[simp] theorem presetAtOpen_keeps (changed : Bool) (s : State) :
    (presetAtOpen changed s).mode = s.mode ∧ (presetAtOpen changed s).ownAddress = s.ownAddress ∧
    (presetAtOpen changed s).tables = s.tables ∧ (presetAtOpen changed s).tally.haulTotal = s.tally.haulTotal ∧
    (presetAtOpen changed s).tally.packedTotal = s.tally.packedTotal ∧
    (presetAtOpen changed s).tally.haulwatch = s.tally.haulwatch ∧
    (presetAtOpen changed s).tally.cutwait = s.tally.cutwait ∧
    (presetAtOpen changed s).tally.haulTaken = s.tally.haulTaken ∧
    (presetAtOpen changed s).tally.shortHaul = s.tally.shortHaul ∧
    (presetAtOpen changed s).tally.clippedHaul = s.tally.clippedHaul ∧
    (presetAtOpen changed s).lay.rejectedTurns = s.lay.rejectedTurns ∧
    (presetAtOpen changed s).lay.ignoredTurns = s.lay.ignoredTurns ∧ (presetAtOpen changed s).mesh = s.mesh ∧
    (presetAtOpen changed s).coil = s.coil ∧ (presetAtOpen changed s).faults = s.faults ∧
    (presetAtOpen changed s).portU = s.portU ∧ (presetAtOpen changed s).portD = s.portD ∧
    (presetAtOpen changed s).store = s.store ∧ (presetAtOpen changed s).holdOut = s.holdOut ∧
    (presetAtOpen changed s).classifier = s.classifier ∧ (presetAtOpen changed s).resetIn = s.resetIn ∧
    (presetAtOpen changed s).freeDraws = s.freeDraws ∧ (presetAtOpen changed s).pending = s.pending := by
  unfold presetAtOpen
  try dsimp only
  repeat' split
  all_goals simp

/-- R99. -/
@[simp] theorem openNewCoil_keeps (length : Nat) (kept : List Defect) (s : State) :
    (openNewCoil length kept s).ownAddress = s.ownAddress ∧ (openNewCoil length kept s).tables = s.tables ∧
    (openNewCoil length kept s).tally.haulTotal = s.tally.haulTotal ∧
    (openNewCoil length kept s).tally.packedTotal = s.tally.packedTotal ∧
    (openNewCoil length kept s).tally.cutwait = s.tally.cutwait ∧
    (openNewCoil length kept s).tally.haulTaken = s.tally.haulTaken ∧
    (openNewCoil length kept s).tally.shortHaul = s.tally.shortHaul ∧
    (openNewCoil length kept s).tally.clippedHaul = s.tally.clippedHaul ∧
    (openNewCoil length kept s).lay.rejectedTurns = s.lay.rejectedTurns ∧
    (openNewCoil length kept s).lay.ignoredTurns = s.lay.ignoredTurns ∧
    (openNewCoil length kept s).coil.queue = s.coil.queue ∧
    (openNewCoil length kept s).coil.pendingTake = s.coil.pendingTake ∧
    (openNewCoil length kept s).coil.rejectedFrames = s.coil.rejectedFrames ∧
    (openNewCoil length kept s).coil.marksMissed = s.coil.marksMissed ∧
    (openNewCoil length kept s).coil.takeOverruns = s.coil.takeOverruns ∧
    (openNewCoil length kept s).coil.nacksNotSent = s.coil.nacksNotSent ∧
    (openNewCoil length kept s).portU = s.portU ∧ (openNewCoil length kept s).portD = s.portD ∧
    (openNewCoil length kept s).store.fqd = s.store.fqd ∧ (openNewCoil length kept s).store.fqu = s.store.fqu ∧
    (openNewCoil length kept s).store.latchInFlight = s.store.latchInFlight ∧
    (openNewCoil length kept s).store.hold = s.store.hold ∧
    (openNewCoil length kept s).store.arriving = s.store.arriving ∧
    (openNewCoil length kept s).store.reserved = s.store.reserved ∧
    (openNewCoil length kept s).holdOut = s.holdOut ∧ (openNewCoil length kept s).classifier = s.classifier ∧
    (openNewCoil length kept s).resetIn = s.resetIn ∧ (openNewCoil length kept s).freeDraws = s.freeDraws ∧
    (openNewCoil length kept s).pending = s.pending := by
  simp [openNewCoil]

/-- R98, R99. -/
@[simp] theorem closeAndOpen_keeps (after : Nat) (s : State) :
    (closeAndOpen after s).ownAddress = s.ownAddress ∧ (closeAndOpen after s).tables = s.tables ∧
    (closeAndOpen after s).tally.haulTotal = s.tally.haulTotal ∧
    (closeAndOpen after s).tally.packedTotal = s.tally.packedTotal ∧
    (closeAndOpen after s).tally.haulTaken = s.tally.haulTaken ∧
    (closeAndOpen after s).tally.shortHaul = s.tally.shortHaul ∧
    (closeAndOpen after s).tally.clippedHaul = s.tally.clippedHaul ∧
    (closeAndOpen after s).lay.rejectedTurns = s.lay.rejectedTurns ∧
    (closeAndOpen after s).lay.ignoredTurns = s.lay.ignoredTurns ∧
    (closeAndOpen after s).coil.rejectedFrames = s.coil.rejectedFrames ∧
    (closeAndOpen after s).coil.marksMissed = s.coil.marksMissed ∧
    (closeAndOpen after s).coil.takeOverruns = s.coil.takeOverruns ∧
    (closeAndOpen after s).coil.nacksNotSent = s.coil.nacksNotSent ∧ (closeAndOpen after s).portU = s.portU ∧
    (closeAndOpen after s).portD = s.portD ∧ (closeAndOpen after s).store.fqd = s.store.fqd ∧
    (closeAndOpen after s).store.fqu = s.store.fqu ∧
    (closeAndOpen after s).store.latchInFlight = s.store.latchInFlight ∧
    (closeAndOpen after s).store.hold = s.store.hold ∧
    (closeAndOpen after s).store.arriving = s.store.arriving ∧
    (closeAndOpen after s).store.reserved = s.store.reserved ∧ (closeAndOpen after s).holdOut = s.holdOut ∧
    (closeAndOpen after s).classifier = s.classifier ∧ (closeAndOpen after s).resetIn = s.resetIn ∧
    (closeAndOpen after s).freeDraws = s.freeDraws ∧ (closeAndOpen after s).pending = s.pending := by
  unfold closeAndOpen
  dsimp only
  split <;> simp

/-- R97. -/
@[simp] theorem cutdoneReceived_keeps (payload : List Byte) (s : State) :
    (cutdoneReceived payload s).ownAddress = s.ownAddress ∧ (cutdoneReceived payload s).tables = s.tables ∧
    (cutdoneReceived payload s).tally.haulTotal = s.tally.haulTotal ∧
    (cutdoneReceived payload s).tally.packedTotal = s.tally.packedTotal ∧
    (cutdoneReceived payload s).tally.haulTaken = s.tally.haulTaken ∧
    (cutdoneReceived payload s).tally.shortHaul = s.tally.shortHaul ∧
    (cutdoneReceived payload s).tally.clippedHaul = s.tally.clippedHaul ∧
    (cutdoneReceived payload s).lay.rejectedTurns = s.lay.rejectedTurns ∧
    (cutdoneReceived payload s).lay.ignoredTurns = s.lay.ignoredTurns ∧
    (cutdoneReceived payload s).coil.marksMissed = s.coil.marksMissed ∧
    (cutdoneReceived payload s).coil.takeOverruns = s.coil.takeOverruns ∧
    (cutdoneReceived payload s).coil.nacksNotSent = s.coil.nacksNotSent ∧
    (cutdoneReceived payload s).portU = s.portU ∧ (cutdoneReceived payload s).portD = s.portD ∧
    (cutdoneReceived payload s).store.fqd = s.store.fqd ∧ (cutdoneReceived payload s).store.fqu = s.store.fqu ∧
    (cutdoneReceived payload s).store.latchInFlight = s.store.latchInFlight ∧
    (cutdoneReceived payload s).store.hold = s.store.hold ∧
    (cutdoneReceived payload s).store.arriving = s.store.arriving ∧
    (cutdoneReceived payload s).store.reserved = s.store.reserved ∧
    (cutdoneReceived payload s).holdOut = s.holdOut ∧ (cutdoneReceived payload s).classifier = s.classifier ∧
    (cutdoneReceived payload s).resetIn = s.resetIn ∧ (cutdoneReceived payload s).freeDraws = s.freeDraws ∧
    (cutdoneReceived payload s).pending = s.pending := by
  unfold cutdoneReceived
  try dsimp only
  repeat' split
  all_goals simp

end Sys2Proof.Machine
end

