-- ==== Sys2Proof/Laws/Manage.lean ====
section
/-! SUPPORT. What the management requests can change. -/

namespace Sys2Proof.Machine

/-- R8, R30. -/
@[simp] theorem enterThreading_keeps (s : State) :
    (enterThreading s).ownAddress = s.ownAddress ∧ (enterThreading s).tables = s.tables ∧
    (enterThreading s).tally.haulTotal = s.tally.haulTotal ∧
    (enterThreading s).tally.packedTotal = s.tally.packedTotal ∧
    (enterThreading s).tally.cutwait = s.tally.cutwait ∧
    (enterThreading s).tally.haulTaken = s.tally.haulTaken ∧
    (enterThreading s).tally.shortHaul = s.tally.shortHaul ∧
    (enterThreading s).tally.clippedHaul = s.tally.clippedHaul ∧
    (enterThreading s).lay.rejectedTurns = s.lay.rejectedTurns ∧
    (enterThreading s).lay.ignoredTurns = s.lay.ignoredTurns ∧
    (enterThreading s).coil.openCoil.number = s.coil.openCoil.number ∧
    (enterThreading s).coil.openCoil.length = s.coil.openCoil.length ∧
    (enterThreading s).coil.openCoil.start = s.coil.openCoil.start ∧
    (enterThreading s).coil.openCoil.rows = s.coil.openCoil.rows ∧
    (enterThreading s).coil.openCoil.worstDeviation = s.coil.openCoil.worstDeviation ∧
    (enterThreading s).coil.openCoil.driftWindows = s.coil.openCoil.driftWindows ∧
    (enterThreading s).coil.openCoil.grade = s.coil.openCoil.grade ∧
    (enterThreading s).coil.openCoil.overdue = s.coil.openCoil.overdue ∧
    (enterThreading s).coil.openCoil.overlengthNoted = s.coil.openCoil.overlengthNoted ∧
    (enterThreading s).coil.queue = s.coil.queue ∧ (enterThreading s).coil.counter = s.coil.counter ∧
    (enterThreading s).coil.current = s.coil.current ∧ (enterThreading s).coil.next = s.coil.next ∧
    (enterThreading s).coil.pendingTake = s.coil.pendingTake ∧
    (enterThreading s).coil.rejectedFrames = s.coil.rejectedFrames ∧
    (enterThreading s).coil.marksMissed = s.coil.marksMissed ∧
    (enterThreading s).coil.takeOverruns = s.coil.takeOverruns ∧
    (enterThreading s).coil.nacksNotSent = s.coil.nacksNotSent ∧
    (enterThreading s).coil.refusedChangeovers = s.coil.refusedChangeovers ∧
    (enterThreading s).portU = s.portU ∧ (enterThreading s).portD = s.portD ∧
    (enterThreading s).store.fqd = s.store.fqd ∧ (enterThreading s).store.fqu = s.store.fqu ∧
    (enterThreading s).store.latchInFlight = s.store.latchInFlight ∧
    (enterThreading s).store.hold = s.store.hold ∧ (enterThreading s).store.arriving = s.store.arriving ∧
    (enterThreading s).store.reserved = s.store.reserved ∧ (enterThreading s).holdOut = s.holdOut ∧
    (enterThreading s).classifier = s.classifier ∧ (enterThreading s).resetIn = s.resetIn ∧
    (enterThreading s).freeDraws = s.freeDraws ∧ (enterThreading s).pending = s.pending := by
  unfold enterThreading
  dsimp only
  split <;> simp

/-- R15. -/
@[simp] theorem releaseLine_keeps (s : State) :
    (releaseLine s).ownAddress = s.ownAddress ∧ (releaseLine s).tables = s.tables ∧
    (releaseLine s).tally = s.tally ∧ (releaseLine s).lay.rejectedTurns = s.lay.rejectedTurns ∧
    (releaseLine s).lay.ignoredTurns = s.lay.ignoredTurns ∧ (releaseLine s).mesh.active = s.mesh.active ∧
    (releaseLine s).mesh.misses = s.mesh.misses ∧ (releaseLine s).mesh.counts = s.mesh.counts ∧
    (releaseLine s).coil = s.coil ∧ (releaseLine s).faults = s.faults ∧ (releaseLine s).portU = s.portU ∧
    (releaseLine s).portD = s.portD ∧ (releaseLine s).store = s.store ∧ (releaseLine s).holdOut = s.holdOut ∧
    (releaseLine s).classifier = s.classifier ∧ (releaseLine s).resetIn = s.resetIn ∧
    (releaseLine s).freeDraws = s.freeDraws ∧ (releaseLine s).pending = s.pending := by
  simp [releaseLine]

/-- R3. -/
@[simp] theorem setModeRequest_keeps (target : Nat) (s : State) :
    ((setModeRequest target s).1).ownAddress = s.ownAddress ∧ ((setModeRequest target s).1).tables = s.tables ∧
    ((setModeRequest target s).1).tally.haulTotal = s.tally.haulTotal ∧
    ((setModeRequest target s).1).tally.packedTotal = s.tally.packedTotal ∧
    ((setModeRequest target s).1).tally.cutwait = s.tally.cutwait ∧
    ((setModeRequest target s).1).tally.haulTaken = s.tally.haulTaken ∧
    ((setModeRequest target s).1).tally.shortHaul = s.tally.shortHaul ∧
    ((setModeRequest target s).1).tally.clippedHaul = s.tally.clippedHaul ∧
    ((setModeRequest target s).1).lay.rejectedTurns = s.lay.rejectedTurns ∧
    ((setModeRequest target s).1).lay.ignoredTurns = s.lay.ignoredTurns ∧
    ((setModeRequest target s).1).coil.openCoil.number = s.coil.openCoil.number ∧
    ((setModeRequest target s).1).coil.openCoil.length = s.coil.openCoil.length ∧
    ((setModeRequest target s).1).coil.openCoil.start = s.coil.openCoil.start ∧
    ((setModeRequest target s).1).coil.openCoil.rows = s.coil.openCoil.rows ∧
    ((setModeRequest target s).1).coil.openCoil.worstDeviation = s.coil.openCoil.worstDeviation ∧
    ((setModeRequest target s).1).coil.openCoil.driftWindows = s.coil.openCoil.driftWindows ∧
    ((setModeRequest target s).1).coil.openCoil.grade = s.coil.openCoil.grade ∧
    ((setModeRequest target s).1).coil.openCoil.overdue = s.coil.openCoil.overdue ∧
    ((setModeRequest target s).1).coil.openCoil.overlengthNoted = s.coil.openCoil.overlengthNoted ∧
    ((setModeRequest target s).1).coil.queue = s.coil.queue ∧
    ((setModeRequest target s).1).coil.counter = s.coil.counter ∧
    ((setModeRequest target s).1).coil.current = s.coil.current ∧
    ((setModeRequest target s).1).coil.next = s.coil.next ∧
    ((setModeRequest target s).1).coil.pendingTake = s.coil.pendingTake ∧
    ((setModeRequest target s).1).coil.rejectedFrames = s.coil.rejectedFrames ∧
    ((setModeRequest target s).1).coil.marksMissed = s.coil.marksMissed ∧
    ((setModeRequest target s).1).coil.takeOverruns = s.coil.takeOverruns ∧
    ((setModeRequest target s).1).coil.nacksNotSent = s.coil.nacksNotSent ∧
    ((setModeRequest target s).1).coil.refusedChangeovers = s.coil.refusedChangeovers ∧
    ((setModeRequest target s).1).portU = s.portU ∧ ((setModeRequest target s).1).portD = s.portD ∧
    ((setModeRequest target s).1).store.fqd = s.store.fqd ∧
    ((setModeRequest target s).1).store.fqu = s.store.fqu ∧
    ((setModeRequest target s).1).store.latchInFlight = s.store.latchInFlight ∧
    ((setModeRequest target s).1).store.hold = s.store.hold ∧
    ((setModeRequest target s).1).store.arriving = s.store.arriving ∧
    ((setModeRequest target s).1).store.reserved = s.store.reserved ∧
    ((setModeRequest target s).1).holdOut = s.holdOut ∧
    ((setModeRequest target s).1).classifier = s.classifier ∧
    ((setModeRequest target s).1).resetIn = s.resetIn ∧ ((setModeRequest target s).1).freeDraws = s.freeDraws ∧
    ((setModeRequest target s).1).pending = s.pending := by
  unfold setModeRequest setModeParked setModeThreading setModeRun tryThreading
  repeat' split
  all_goals simp [enterParked, enterRun, returnToThreading]

/-- R15. -/
@[simp] theorem releaseRequest_keeps (s : State) :
    ((releaseRequest s).1).ownAddress = s.ownAddress ∧ ((releaseRequest s).1).tables = s.tables ∧
    ((releaseRequest s).1).tally = s.tally ∧ ((releaseRequest s).1).lay.rejectedTurns = s.lay.rejectedTurns ∧
    ((releaseRequest s).1).lay.ignoredTurns = s.lay.ignoredTurns ∧
    ((releaseRequest s).1).mesh.active = s.mesh.active ∧ ((releaseRequest s).1).mesh.misses = s.mesh.misses ∧
    ((releaseRequest s).1).mesh.counts = s.mesh.counts ∧ ((releaseRequest s).1).coil = s.coil ∧
    ((releaseRequest s).1).faults = s.faults ∧ ((releaseRequest s).1).portU = s.portU ∧
    ((releaseRequest s).1).portD = s.portD ∧ ((releaseRequest s).1).store = s.store ∧
    ((releaseRequest s).1).holdOut = s.holdOut ∧ ((releaseRequest s).1).classifier = s.classifier ∧
    ((releaseRequest s).1).resetIn = s.resetIn ∧ ((releaseRequest s).1).freeDraws = s.freeDraws ∧
    ((releaseRequest s).1).pending = s.pending := by
  unfold releaseRequest
  try dsimp only
  repeat' split
  all_goals simp

/-- R196. -/
@[simp] theorem writeFieldsRequest_keeps (table row : Nat) (pairs : List (Byte × BitVec 32)) (s : State) :
    ((writeFieldsRequest table row pairs s).1).mode = s.mode ∧
    ((writeFieldsRequest table row pairs s).1).ownAddress = s.ownAddress ∧
    ((writeFieldsRequest table row pairs s).1).tally = s.tally ∧
    ((writeFieldsRequest table row pairs s).1).lay = s.lay ∧
    ((writeFieldsRequest table row pairs s).1).mesh = s.mesh ∧
    ((writeFieldsRequest table row pairs s).1).coil = s.coil ∧
    ((writeFieldsRequest table row pairs s).1).faults = s.faults ∧
    ((writeFieldsRequest table row pairs s).1).portU = s.portU ∧
    ((writeFieldsRequest table row pairs s).1).portD = s.portD ∧
    ((writeFieldsRequest table row pairs s).1).store = s.store ∧
    ((writeFieldsRequest table row pairs s).1).classifier = s.classifier ∧
    ((writeFieldsRequest table row pairs s).1).resetIn = s.resetIn ∧
    ((writeFieldsRequest table row pairs s).1).freeDraws = s.freeDraws ∧
    ((writeFieldsRequest table row pairs s).1).pending = s.pending := by
  unfold writeFieldsRequest
  dsimp only
  repeat' split
  all_goals simp

/-- R110. -/
@[simp] theorem setProductRequest_keeps (slot : Nat) (s : State) :
    ((setProductRequest slot s).1).ownAddress = s.ownAddress ∧
    ((setProductRequest slot s).1).tables = s.tables ∧
    ((setProductRequest slot s).1).tally.haulTotal = s.tally.haulTotal ∧
    ((setProductRequest slot s).1).tally.packedTotal = s.tally.packedTotal ∧
    ((setProductRequest slot s).1).tally.cutwait = s.tally.cutwait ∧
    ((setProductRequest slot s).1).tally.haulTaken = s.tally.haulTaken ∧
    ((setProductRequest slot s).1).tally.shortHaul = s.tally.shortHaul ∧
    ((setProductRequest slot s).1).tally.clippedHaul = s.tally.clippedHaul ∧
    ((setProductRequest slot s).1).lay.rejectedTurns = s.lay.rejectedTurns ∧
    ((setProductRequest slot s).1).lay.ignoredTurns = s.lay.ignoredTurns ∧
    ((setProductRequest slot s).1).coil.openCoil.number = s.coil.openCoil.number ∧
    ((setProductRequest slot s).1).coil.openCoil.length = s.coil.openCoil.length ∧
    ((setProductRequest slot s).1).coil.openCoil.start = s.coil.openCoil.start ∧
    ((setProductRequest slot s).1).coil.openCoil.rows = s.coil.openCoil.rows ∧
    ((setProductRequest slot s).1).coil.openCoil.worstDeviation = s.coil.openCoil.worstDeviation ∧
    ((setProductRequest slot s).1).coil.openCoil.driftWindows = s.coil.openCoil.driftWindows ∧
    ((setProductRequest slot s).1).coil.openCoil.grade = s.coil.openCoil.grade ∧
    ((setProductRequest slot s).1).coil.openCoil.overdue = s.coil.openCoil.overdue ∧
    ((setProductRequest slot s).1).coil.openCoil.overlengthNoted = s.coil.openCoil.overlengthNoted ∧
    ((setProductRequest slot s).1).coil.queue = s.coil.queue ∧
    ((setProductRequest slot s).1).coil.counter = s.coil.counter ∧
    ((setProductRequest slot s).1).coil.next = s.coil.next ∧
    ((setProductRequest slot s).1).coil.pendingTake = s.coil.pendingTake ∧
    ((setProductRequest slot s).1).coil.rejectedFrames = s.coil.rejectedFrames ∧
    ((setProductRequest slot s).1).coil.marksMissed = s.coil.marksMissed ∧
    ((setProductRequest slot s).1).coil.takeOverruns = s.coil.takeOverruns ∧
    ((setProductRequest slot s).1).coil.nacksNotSent = s.coil.nacksNotSent ∧
    ((setProductRequest slot s).1).coil.refusedChangeovers = s.coil.refusedChangeovers ∧
    ((setProductRequest slot s).1).portU = s.portU ∧ ((setProductRequest slot s).1).portD = s.portD ∧
    ((setProductRequest slot s).1).store.fqd = s.store.fqd ∧
    ((setProductRequest slot s).1).store.fqu = s.store.fqu ∧
    ((setProductRequest slot s).1).store.latchInFlight = s.store.latchInFlight ∧
    ((setProductRequest slot s).1).store.hold = s.store.hold ∧
    ((setProductRequest slot s).1).store.arriving = s.store.arriving ∧
    ((setProductRequest slot s).1).store.reserved = s.store.reserved ∧
    ((setProductRequest slot s).1).holdOut = s.holdOut ∧
    ((setProductRequest slot s).1).classifier = s.classifier ∧
    ((setProductRequest slot s).1).resetIn = s.resetIn ∧
    ((setProductRequest slot s).1).freeDraws = s.freeDraws ∧ ((setProductRequest slot s).1).pending = s.pending := by
  unfold setProductRequest
  try dsimp only
  repeat' split
  all_goals simp

/-- R113. -/
@[simp] theorem setNextRequest_keeps (slot : Nat) (s : State) :
    ((setNextRequest slot s).1).mode = s.mode ∧ ((setNextRequest slot s).1).ownAddress = s.ownAddress ∧
    ((setNextRequest slot s).1).tables = s.tables ∧ ((setNextRequest slot s).1).tally = s.tally ∧
    ((setNextRequest slot s).1).lay = s.lay ∧ ((setNextRequest slot s).1).mesh = s.mesh ∧
    ((setNextRequest slot s).1).coil.openCoil = s.coil.openCoil ∧
    ((setNextRequest slot s).1).coil.queue = s.coil.queue ∧
    ((setNextRequest slot s).1).coil.counter = s.coil.counter ∧
    ((setNextRequest slot s).1).coil.current = s.coil.current ∧
    ((setNextRequest slot s).1).coil.pendingTake = s.coil.pendingTake ∧
    ((setNextRequest slot s).1).coil.rejectedFrames = s.coil.rejectedFrames ∧
    ((setNextRequest slot s).1).coil.marksMissed = s.coil.marksMissed ∧
    ((setNextRequest slot s).1).coil.takeOverruns = s.coil.takeOverruns ∧
    ((setNextRequest slot s).1).coil.nacksNotSent = s.coil.nacksNotSent ∧
    ((setNextRequest slot s).1).coil.refusedChangeovers = s.coil.refusedChangeovers ∧
    ((setNextRequest slot s).1).faults = s.faults ∧ ((setNextRequest slot s).1).portU = s.portU ∧
    ((setNextRequest slot s).1).portD = s.portD ∧ ((setNextRequest slot s).1).store = s.store ∧
    ((setNextRequest slot s).1).holdOut = s.holdOut ∧ ((setNextRequest slot s).1).classifier = s.classifier ∧
    ((setNextRequest slot s).1).resetIn = s.resetIn ∧ ((setNextRequest slot s).1).freeDraws = s.freeDraws ∧
    ((setNextRequest slot s).1).pending = s.pending := by
  unfold setNextRequest
  try dsimp only
  repeat' split
  all_goals simp

/-- R93. -/
@[simp] theorem cutManually_keeps (s : State) :
    ((cutManually s).1).ownAddress = s.ownAddress ∧ ((cutManually s).1).tables = s.tables ∧
    ((cutManually s).1).tally.haulTotal = s.tally.haulTotal ∧
    ((cutManually s).1).tally.packedTotal = s.tally.packedTotal ∧
    ((cutManually s).1).tally.mark = s.tally.mark ∧ ((cutManually s).1).tally.window = s.tally.window ∧
    ((cutManually s).1).tally.windowLength = s.tally.windowLength ∧
    ((cutManually s).1).tally.cutwait = s.tally.cutwait ∧ ((cutManually s).1).tally.loaded = s.tally.loaded ∧
    ((cutManually s).1).tally.haulTaken = s.tally.haulTaken ∧
    ((cutManually s).1).tally.shortHaul = s.tally.shortHaul ∧
    ((cutManually s).1).tally.clippedHaul = s.tally.clippedHaul ∧ ((cutManually s).1).lay = s.lay ∧
    ((cutManually s).1).mesh = s.mesh ∧ ((cutManually s).1).coil.openCoil.number = s.coil.openCoil.number ∧
    ((cutManually s).1).coil.openCoil.productId = s.coil.openCoil.productId ∧
    ((cutManually s).1).coil.openCoil.net = s.coil.openCoil.net ∧
    ((cutManually s).1).coil.openCoil.length = s.coil.openCoil.length ∧
    ((cutManually s).1).coil.openCoil.start = s.coil.openCoil.start ∧
    ((cutManually s).1).coil.openCoil.rows = s.coil.openCoil.rows ∧
    ((cutManually s).1).coil.openCoil.worstDeviation = s.coil.openCoil.worstDeviation ∧
    ((cutManually s).1).coil.openCoil.driftWindows = s.coil.openCoil.driftWindows ∧
    ((cutManually s).1).coil.openCoil.grade = s.coil.openCoil.grade ∧
    ((cutManually s).1).coil.openCoil.overdue = s.coil.openCoil.overdue ∧
    ((cutManually s).1).coil.openCoil.overlengthNoted = s.coil.openCoil.overlengthNoted ∧
    ((cutManually s).1).coil.queue = s.coil.queue ∧ ((cutManually s).1).coil.counter = s.coil.counter ∧
    ((cutManually s).1).coil.current = s.coil.current ∧ ((cutManually s).1).coil.next = s.coil.next ∧
    ((cutManually s).1).coil.pendingTake = s.coil.pendingTake ∧
    ((cutManually s).1).coil.rejectedFrames = s.coil.rejectedFrames ∧
    ((cutManually s).1).coil.marksMissed = s.coil.marksMissed ∧
    ((cutManually s).1).coil.takeOverruns = s.coil.takeOverruns ∧
    ((cutManually s).1).coil.nacksNotSent = s.coil.nacksNotSent ∧
    ((cutManually s).1).coil.refusedChangeovers = s.coil.refusedChangeovers ∧
    ((cutManually s).1).portU = s.portU ∧ ((cutManually s).1).portD = s.portD ∧
    ((cutManually s).1).store.fqd = s.store.fqd ∧ ((cutManually s).1).store.fqu = s.store.fqu ∧
    ((cutManually s).1).store.latchInFlight = s.store.latchInFlight ∧
    ((cutManually s).1).store.hold = s.store.hold ∧ ((cutManually s).1).store.arriving = s.store.arriving ∧
    ((cutManually s).1).store.reserved = s.store.reserved ∧ ((cutManually s).1).holdOut = s.holdOut ∧
    ((cutManually s).1).classifier = s.classifier ∧ ((cutManually s).1).resetIn = s.resetIn ∧
    ((cutManually s).1).freeDraws = s.freeDraws ∧ ((cutManually s).1).pending = s.pending := by
  unfold cutManually
  try dsimp only
  repeat' split
  all_goals simp

/-- R131. -/
@[simp] theorem clearFaultRequest_keeps (kind source : Nat) (s : State) :
    ((clearFaultRequest kind source s).1).ownAddress = s.ownAddress ∧
    ((clearFaultRequest kind source s).1).tables = s.tables ∧
    ((clearFaultRequest kind source s).1).tally = s.tally ∧ ((clearFaultRequest kind source s).1).lay = s.lay ∧
    ((clearFaultRequest kind source s).1).mesh = s.mesh ∧ ((clearFaultRequest kind source s).1).coil = s.coil ∧
    ((clearFaultRequest kind source s).1).faults.counters = s.faults.counters ∧
    ((clearFaultRequest kind source s).1).faults.overflow = s.faults.overflow ∧
    ((clearFaultRequest kind source s).1).faults.nextIdentity = s.faults.nextIdentity ∧
    ((clearFaultRequest kind source s).1).portU = s.portU ∧
    ((clearFaultRequest kind source s).1).portD = s.portD ∧
    ((clearFaultRequest kind source s).1).store.fqd = s.store.fqd ∧
    ((clearFaultRequest kind source s).1).store.fqu = s.store.fqu ∧
    ((clearFaultRequest kind source s).1).store.iqd = s.store.iqd ∧
    ((clearFaultRequest kind source s).1).store.iqu = s.store.iqu ∧
    ((clearFaultRequest kind source s).1).store.latchInFlight = s.store.latchInFlight ∧
    ((clearFaultRequest kind source s).1).store.hold = s.store.hold ∧
    ((clearFaultRequest kind source s).1).store.arriving = s.store.arriving ∧
    ((clearFaultRequest kind source s).1).store.reserved = s.store.reserved ∧
    ((clearFaultRequest kind source s).1).holdOut = s.holdOut ∧
    ((clearFaultRequest kind source s).1).classifier = s.classifier ∧
    ((clearFaultRequest kind source s).1).resetIn = s.resetIn ∧
    ((clearFaultRequest kind source s).1).freeDraws = s.freeDraws ∧
    ((clearFaultRequest kind source s).1).pending = s.pending := by
  unfold clearFaultRequest
  dsimp only
  repeat' split
  all_goals simp

/-- R132. -/
@[simp] theorem clearAllRequest_keeps (s : State) :
    ((clearAllRequest s).1).ownAddress = s.ownAddress ∧ ((clearAllRequest s).1).tables = s.tables ∧
    ((clearAllRequest s).1).tally = s.tally ∧ ((clearAllRequest s).1).lay = s.lay ∧
    ((clearAllRequest s).1).mesh = s.mesh ∧ ((clearAllRequest s).1).coil = s.coil ∧
    ((clearAllRequest s).1).faults.counters = s.faults.counters ∧
    ((clearAllRequest s).1).faults.overflow = s.faults.overflow ∧
    ((clearAllRequest s).1).faults.nextIdentity = s.faults.nextIdentity ∧
    ((clearAllRequest s).1).portU = s.portU ∧ ((clearAllRequest s).1).portD = s.portD ∧
    ((clearAllRequest s).1).store.fqd = s.store.fqd ∧ ((clearAllRequest s).1).store.fqu = s.store.fqu ∧
    ((clearAllRequest s).1).store.iqd = s.store.iqd ∧ ((clearAllRequest s).1).store.iqu = s.store.iqu ∧
    ((clearAllRequest s).1).store.latchInFlight = s.store.latchInFlight ∧
    ((clearAllRequest s).1).store.hold = s.store.hold ∧
    ((clearAllRequest s).1).store.arriving = s.store.arriving ∧
    ((clearAllRequest s).1).store.reserved = s.store.reserved ∧ ((clearAllRequest s).1).holdOut = s.holdOut ∧
    ((clearAllRequest s).1).classifier = s.classifier ∧ ((clearAllRequest s).1).resetIn = s.resetIn ∧
    ((clearAllRequest s).1).freeDraws = s.freeDraws ∧ ((clearAllRequest s).1).pending = s.pending := by
  simp [clearAllRequest]

/-- R154. -/
@[simp] theorem clearCountersRequest_keeps (s : State) :
    ((clearCountersRequest s).1).mode = s.mode ∧ ((clearCountersRequest s).1).ownAddress = s.ownAddress ∧
    ((clearCountersRequest s).1).tables = s.tables ∧ ((clearCountersRequest s).1).tally = s.tally ∧
    ((clearCountersRequest s).1).lay = s.lay ∧ ((clearCountersRequest s).1).mesh = s.mesh ∧
    ((clearCountersRequest s).1).coil = s.coil ∧ ((clearCountersRequest s).1).faults = s.faults ∧
    ((clearCountersRequest s).1).portU.receiver = s.portU.receiver ∧
    ((clearCountersRequest s).1).portU.transmitter = s.portU.transmitter ∧
    ((clearCountersRequest s).1).portU.holdIn = s.portU.holdIn ∧
    ((clearCountersRequest s).1).portD.receiver = s.portD.receiver ∧
    ((clearCountersRequest s).1).portD.transmitter = s.portD.transmitter ∧
    ((clearCountersRequest s).1).portD.holdIn = s.portD.holdIn ∧ ((clearCountersRequest s).1).store = s.store ∧
    ((clearCountersRequest s).1).holdOut = s.holdOut ∧ ((clearCountersRequest s).1).classifier = s.classifier ∧
    ((clearCountersRequest s).1).resetIn = s.resetIn ∧ ((clearCountersRequest s).1).freeDraws = s.freeDraws ∧
    ((clearCountersRequest s).1).pending = s.pending := by
  repeat' apply And.intro
  all_goals rfl

/-- R200: nothing at the taking. -/
@[simp] theorem setAddressRequest_keeps (a : Nat) (s : State) :
    ((setAddressRequest a s).1).mode = s.mode ∧ ((setAddressRequest a s).1).ownAddress = s.ownAddress ∧
    ((setAddressRequest a s).1).tables = s.tables ∧ ((setAddressRequest a s).1).tally = s.tally ∧
    ((setAddressRequest a s).1).lay = s.lay ∧ ((setAddressRequest a s).1).mesh = s.mesh ∧
    ((setAddressRequest a s).1).coil = s.coil ∧ ((setAddressRequest a s).1).faults = s.faults ∧
    ((setAddressRequest a s).1).portU = s.portU ∧ ((setAddressRequest a s).1).portD = s.portD ∧
    ((setAddressRequest a s).1).store = s.store ∧ ((setAddressRequest a s).1).holdOut = s.holdOut ∧
    ((setAddressRequest a s).1).classifier = s.classifier ∧ ((setAddressRequest a s).1).resetIn = s.resetIn ∧
    ((setAddressRequest a s).1).freeDraws = s.freeDraws ∧ ((setAddressRequest a s).1).pending = s.pending := by
  unfold setAddressRequest
  try dsimp only
  repeat' split
  all_goals simp

/-- R81. -/
@[simp] theorem readMeshRequest_keeps (page : Nat) (s : State) :
    ((readMeshRequest page s).1).mode = s.mode ∧ ((readMeshRequest page s).1).ownAddress = s.ownAddress ∧
    ((readMeshRequest page s).1).tables = s.tables ∧ ((readMeshRequest page s).1).tally = s.tally ∧
    ((readMeshRequest page s).1).lay = s.lay ∧ ((readMeshRequest page s).1).mesh = s.mesh ∧
    ((readMeshRequest page s).1).coil = s.coil ∧ ((readMeshRequest page s).1).faults = s.faults ∧
    ((readMeshRequest page s).1).portU = s.portU ∧ ((readMeshRequest page s).1).portD = s.portD ∧
    ((readMeshRequest page s).1).store = s.store ∧ ((readMeshRequest page s).1).holdOut = s.holdOut ∧
    ((readMeshRequest page s).1).classifier = s.classifier ∧ ((readMeshRequest page s).1).resetIn = s.resetIn ∧
    ((readMeshRequest page s).1).pending = s.pending := by
  unfold readMeshRequest
  try dsimp only
  repeat' split
  all_goals simp

/-- R193 step 4: what the requests together can change. -/
@[simp] theorem carryOut_keeps (r : Request) (s : State) :
    ((carryOut r s).1).ownAddress = s.ownAddress ∧ ((carryOut r s).1).tally.haulTotal = s.tally.haulTotal ∧
    ((carryOut r s).1).tally.packedTotal = s.tally.packedTotal ∧
    ((carryOut r s).1).tally.cutwait = s.tally.cutwait ∧
    ((carryOut r s).1).tally.haulTaken = s.tally.haulTaken ∧
    ((carryOut r s).1).tally.shortHaul = s.tally.shortHaul ∧
    ((carryOut r s).1).tally.clippedHaul = s.tally.clippedHaul ∧
    ((carryOut r s).1).lay.rejectedTurns = s.lay.rejectedTurns ∧
    ((carryOut r s).1).lay.ignoredTurns = s.lay.ignoredTurns ∧
    ((carryOut r s).1).coil.openCoil.number = s.coil.openCoil.number ∧
    ((carryOut r s).1).coil.openCoil.length = s.coil.openCoil.length ∧
    ((carryOut r s).1).coil.openCoil.start = s.coil.openCoil.start ∧
    ((carryOut r s).1).coil.openCoil.rows = s.coil.openCoil.rows ∧
    ((carryOut r s).1).coil.openCoil.worstDeviation = s.coil.openCoil.worstDeviation ∧
    ((carryOut r s).1).coil.openCoil.driftWindows = s.coil.openCoil.driftWindows ∧
    ((carryOut r s).1).coil.openCoil.grade = s.coil.openCoil.grade ∧
    ((carryOut r s).1).coil.openCoil.overdue = s.coil.openCoil.overdue ∧
    ((carryOut r s).1).coil.openCoil.overlengthNoted = s.coil.openCoil.overlengthNoted ∧
    ((carryOut r s).1).coil.queue = s.coil.queue ∧ ((carryOut r s).1).coil.counter = s.coil.counter ∧
    ((carryOut r s).1).coil.pendingTake = s.coil.pendingTake ∧
    ((carryOut r s).1).coil.rejectedFrames = s.coil.rejectedFrames ∧
    ((carryOut r s).1).coil.marksMissed = s.coil.marksMissed ∧
    ((carryOut r s).1).coil.takeOverruns = s.coil.takeOverruns ∧
    ((carryOut r s).1).coil.nacksNotSent = s.coil.nacksNotSent ∧
    ((carryOut r s).1).coil.refusedChangeovers = s.coil.refusedChangeovers ∧
    ((carryOut r s).1).portU.receiver = s.portU.receiver ∧
    ((carryOut r s).1).portU.transmitter = s.portU.transmitter ∧
    ((carryOut r s).1).portU.holdIn = s.portU.holdIn ∧ ((carryOut r s).1).portD.receiver = s.portD.receiver ∧
    ((carryOut r s).1).portD.transmitter = s.portD.transmitter ∧
    ((carryOut r s).1).portD.holdIn = s.portD.holdIn ∧ ((carryOut r s).1).store.fqd = s.store.fqd ∧
    ((carryOut r s).1).store.fqu = s.store.fqu ∧
    ((carryOut r s).1).store.latchInFlight = s.store.latchInFlight ∧
    ((carryOut r s).1).store.hold = s.store.hold ∧ ((carryOut r s).1).store.arriving = s.store.arriving ∧
    ((carryOut r s).1).store.reserved = s.store.reserved ∧ ((carryOut r s).1).classifier = s.classifier ∧
    ((carryOut r s).1).resetIn = s.resetIn ∧ ((carryOut r s).1).pending = s.pending := by
  cases r <;> simp [carryOut, resetRequested]

/-- R193. -/
@[simp] theorem perform_keeps (payload : List Byte) (s : State) :
    ((perform payload s).1).ownAddress = s.ownAddress ∧
    ((perform payload s).1).tally.haulTotal = s.tally.haulTotal ∧
    ((perform payload s).1).tally.packedTotal = s.tally.packedTotal ∧
    ((perform payload s).1).tally.cutwait = s.tally.cutwait ∧
    ((perform payload s).1).tally.haulTaken = s.tally.haulTaken ∧
    ((perform payload s).1).tally.shortHaul = s.tally.shortHaul ∧
    ((perform payload s).1).tally.clippedHaul = s.tally.clippedHaul ∧
    ((perform payload s).1).lay.rejectedTurns = s.lay.rejectedTurns ∧
    ((perform payload s).1).lay.ignoredTurns = s.lay.ignoredTurns ∧
    ((perform payload s).1).coil.openCoil.number = s.coil.openCoil.number ∧
    ((perform payload s).1).coil.openCoil.length = s.coil.openCoil.length ∧
    ((perform payload s).1).coil.openCoil.start = s.coil.openCoil.start ∧
    ((perform payload s).1).coil.openCoil.rows = s.coil.openCoil.rows ∧
    ((perform payload s).1).coil.openCoil.worstDeviation = s.coil.openCoil.worstDeviation ∧
    ((perform payload s).1).coil.openCoil.driftWindows = s.coil.openCoil.driftWindows ∧
    ((perform payload s).1).coil.openCoil.grade = s.coil.openCoil.grade ∧
    ((perform payload s).1).coil.openCoil.overdue = s.coil.openCoil.overdue ∧
    ((perform payload s).1).coil.openCoil.overlengthNoted = s.coil.openCoil.overlengthNoted ∧
    ((perform payload s).1).coil.queue = s.coil.queue ∧ ((perform payload s).1).coil.counter = s.coil.counter ∧
    ((perform payload s).1).coil.pendingTake = s.coil.pendingTake ∧
    ((perform payload s).1).coil.rejectedFrames = s.coil.rejectedFrames ∧
    ((perform payload s).1).coil.marksMissed = s.coil.marksMissed ∧
    ((perform payload s).1).coil.takeOverruns = s.coil.takeOverruns ∧
    ((perform payload s).1).coil.nacksNotSent = s.coil.nacksNotSent ∧
    ((perform payload s).1).coil.refusedChangeovers = s.coil.refusedChangeovers ∧
    ((perform payload s).1).portU.receiver = s.portU.receiver ∧
    ((perform payload s).1).portU.transmitter = s.portU.transmitter ∧
    ((perform payload s).1).portU.holdIn = s.portU.holdIn ∧
    ((perform payload s).1).portD.receiver = s.portD.receiver ∧
    ((perform payload s).1).portD.transmitter = s.portD.transmitter ∧
    ((perform payload s).1).portD.holdIn = s.portD.holdIn ∧ ((perform payload s).1).store.fqd = s.store.fqd ∧
    ((perform payload s).1).store.fqu = s.store.fqu ∧
    ((perform payload s).1).store.latchInFlight = s.store.latchInFlight ∧
    ((perform payload s).1).store.hold = s.store.hold ∧
    ((perform payload s).1).store.arriving = s.store.arriving ∧
    ((perform payload s).1).store.reserved = s.store.reserved ∧
    ((perform payload s).1).classifier = s.classifier ∧ ((perform payload s).1).resetIn = s.resetIn ∧
    ((perform payload s).1).pending = s.pending := by
  unfold perform
  try dsimp only
  repeat' split
  all_goals simp

/-- R163. -/
@[simp] theorem reserveEntry_keeps (s : State) :
    (reserveEntry s).mode = s.mode ∧ (reserveEntry s).ownAddress = s.ownAddress ∧
    (reserveEntry s).tables = s.tables ∧ (reserveEntry s).tally = s.tally ∧ (reserveEntry s).lay = s.lay ∧
    (reserveEntry s).mesh = s.mesh ∧ (reserveEntry s).coil = s.coil ∧ (reserveEntry s).faults = s.faults ∧
    (reserveEntry s).portU = s.portU ∧ (reserveEntry s).portD = s.portD ∧
    (reserveEntry s).store.fqd = s.store.fqd ∧ (reserveEntry s).store.fqu = s.store.fqu ∧
    (reserveEntry s).store.iqd = s.store.iqd ∧ (reserveEntry s).store.iqu = s.store.iqu ∧
    (reserveEntry s).store.latchPending = s.store.latchPending ∧
    (reserveEntry s).store.latchInFlight = s.store.latchInFlight ∧ (reserveEntry s).store.hold = s.store.hold ∧
    (reserveEntry s).store.arriving = s.store.arriving ∧ (reserveEntry s).holdOut = s.holdOut ∧
    (reserveEntry s).classifier = s.classifier ∧ (reserveEntry s).resetIn = s.resetIn ∧
    (reserveEntry s).freeDraws = s.freeDraws ∧ (reserveEntry s).pending = s.pending := by
  repeat' apply And.intro
  all_goals rfl

/-- R163, R192. -/
@[simp] theorem queueReply_keeps (dst : Addr) (r : Reply) (s : State) :
    (queueReply dst r s).mode = s.mode ∧ (queueReply dst r s).ownAddress = s.ownAddress ∧
    (queueReply dst r s).tables = s.tables ∧ (queueReply dst r s).tally = s.tally ∧
    (queueReply dst r s).lay = s.lay ∧ (queueReply dst r s).mesh = s.mesh ∧ (queueReply dst r s).coil = s.coil ∧
    (queueReply dst r s).faults = s.faults ∧ (queueReply dst r s).portU = s.portU ∧
    (queueReply dst r s).portD = s.portD ∧ (queueReply dst r s).store.fqd = s.store.fqd ∧
    (queueReply dst r s).store.fqu = s.store.fqu ∧ (queueReply dst r s).store.iqd = s.store.iqd ∧
    (queueReply dst r s).store.latchPending = s.store.latchPending ∧
    (queueReply dst r s).store.latchInFlight = s.store.latchInFlight ∧
    (queueReply dst r s).store.hold = s.store.hold ∧ (queueReply dst r s).store.arriving = s.store.arriving ∧
    (queueReply dst r s).holdOut = s.holdOut ∧ (queueReply dst r s).classifier = s.classifier ∧
    (queueReply dst r s).resetIn = s.resetIn ∧ (queueReply dst r s).freeDraws = s.freeDraws ∧
    (queueReply dst r s).pending = s.pending := by
  repeat' apply And.intro
  all_goals rfl

/-- R192. -/
@[simp] theorem takeRequest_keeps (f : Frame) (s : State) :
    (takeRequest f s).ownAddress = s.ownAddress ∧ (takeRequest f s).tally.haulTotal = s.tally.haulTotal ∧
    (takeRequest f s).tally.packedTotal = s.tally.packedTotal ∧
    (takeRequest f s).tally.cutwait = s.tally.cutwait ∧ (takeRequest f s).tally.haulTaken = s.tally.haulTaken ∧
    (takeRequest f s).tally.shortHaul = s.tally.shortHaul ∧
    (takeRequest f s).tally.clippedHaul = s.tally.clippedHaul ∧
    (takeRequest f s).lay.rejectedTurns = s.lay.rejectedTurns ∧
    (takeRequest f s).lay.ignoredTurns = s.lay.ignoredTurns ∧
    (takeRequest f s).coil.openCoil.number = s.coil.openCoil.number ∧
    (takeRequest f s).coil.openCoil.length = s.coil.openCoil.length ∧
    (takeRequest f s).coil.openCoil.start = s.coil.openCoil.start ∧
    (takeRequest f s).coil.openCoil.rows = s.coil.openCoil.rows ∧
    (takeRequest f s).coil.openCoil.worstDeviation = s.coil.openCoil.worstDeviation ∧
    (takeRequest f s).coil.openCoil.driftWindows = s.coil.openCoil.driftWindows ∧
    (takeRequest f s).coil.openCoil.grade = s.coil.openCoil.grade ∧
    (takeRequest f s).coil.openCoil.overdue = s.coil.openCoil.overdue ∧
    (takeRequest f s).coil.openCoil.overlengthNoted = s.coil.openCoil.overlengthNoted ∧
    (takeRequest f s).coil.queue = s.coil.queue ∧ (takeRequest f s).coil.counter = s.coil.counter ∧
    (takeRequest f s).coil.pendingTake = s.coil.pendingTake ∧
    (takeRequest f s).coil.rejectedFrames = s.coil.rejectedFrames ∧
    (takeRequest f s).coil.marksMissed = s.coil.marksMissed ∧
    (takeRequest f s).coil.takeOverruns = s.coil.takeOverruns ∧
    (takeRequest f s).coil.nacksNotSent = s.coil.nacksNotSent ∧
    (takeRequest f s).coil.refusedChangeovers = s.coil.refusedChangeovers ∧
    (takeRequest f s).portU.receiver = s.portU.receiver ∧
    (takeRequest f s).portU.transmitter = s.portU.transmitter ∧
    (takeRequest f s).portU.holdIn = s.portU.holdIn ∧ (takeRequest f s).portD.receiver = s.portD.receiver ∧
    (takeRequest f s).portD.transmitter = s.portD.transmitter ∧
    (takeRequest f s).portD.holdIn = s.portD.holdIn ∧ (takeRequest f s).store.fqd = s.store.fqd ∧
    (takeRequest f s).store.fqu = s.store.fqu ∧ (takeRequest f s).store.latchInFlight = s.store.latchInFlight ∧
    (takeRequest f s).store.hold = s.store.hold ∧ (takeRequest f s).store.arriving = s.store.arriving ∧
    (takeRequest f s).classifier = s.classifier ∧ (takeRequest f s).resetIn = s.resetIn ∧
    (takeRequest f s).pending = s.pending := by
  simp [takeRequest]

/-- R170, R171. -/
@[simp] theorem handMreq_keeps (f : Frame) (s : State) :
    (handMreq f s).ownAddress = s.ownAddress ∧ (handMreq f s).tally.haulTotal = s.tally.haulTotal ∧
    (handMreq f s).tally.packedTotal = s.tally.packedTotal ∧ (handMreq f s).tally.cutwait = s.tally.cutwait ∧
    (handMreq f s).tally.haulTaken = s.tally.haulTaken ∧ (handMreq f s).tally.shortHaul = s.tally.shortHaul ∧
    (handMreq f s).tally.clippedHaul = s.tally.clippedHaul ∧
    (handMreq f s).lay.rejectedTurns = s.lay.rejectedTurns ∧
    (handMreq f s).lay.ignoredTurns = s.lay.ignoredTurns ∧
    (handMreq f s).coil.openCoil.number = s.coil.openCoil.number ∧
    (handMreq f s).coil.openCoil.length = s.coil.openCoil.length ∧
    (handMreq f s).coil.openCoil.start = s.coil.openCoil.start ∧
    (handMreq f s).coil.openCoil.rows = s.coil.openCoil.rows ∧
    (handMreq f s).coil.openCoil.worstDeviation = s.coil.openCoil.worstDeviation ∧
    (handMreq f s).coil.openCoil.driftWindows = s.coil.openCoil.driftWindows ∧
    (handMreq f s).coil.openCoil.grade = s.coil.openCoil.grade ∧
    (handMreq f s).coil.openCoil.overdue = s.coil.openCoil.overdue ∧
    (handMreq f s).coil.openCoil.overlengthNoted = s.coil.openCoil.overlengthNoted ∧
    (handMreq f s).coil.queue = s.coil.queue ∧ (handMreq f s).coil.counter = s.coil.counter ∧
    (handMreq f s).coil.pendingTake = s.coil.pendingTake ∧
    (handMreq f s).coil.rejectedFrames = s.coil.rejectedFrames ∧
    (handMreq f s).coil.marksMissed = s.coil.marksMissed ∧
    (handMreq f s).coil.takeOverruns = s.coil.takeOverruns ∧
    (handMreq f s).coil.nacksNotSent = s.coil.nacksNotSent ∧
    (handMreq f s).coil.refusedChangeovers = s.coil.refusedChangeovers ∧
    (handMreq f s).portU.receiver = s.portU.receiver ∧ (handMreq f s).portU.transmitter = s.portU.transmitter ∧
    (handMreq f s).portU.holdIn = s.portU.holdIn ∧ (handMreq f s).portD.receiver = s.portD.receiver ∧
    (handMreq f s).portD.transmitter = s.portD.transmitter ∧ (handMreq f s).portD.holdIn = s.portD.holdIn ∧
    (handMreq f s).store.fqd = s.store.fqd ∧ (handMreq f s).store.fqu = s.store.fqu ∧
    (handMreq f s).store.latchInFlight = s.store.latchInFlight ∧ (handMreq f s).classifier = s.classifier ∧
    (handMreq f s).resetIn = s.resetIn ∧ (handMreq f s).pending = s.pending := by
  unfold handMreq
  try dsimp only
  repeat' split
  all_goals simp

/-- R172. -/
@[simp] theorem takeHeld_keeps (s : State) :
    (takeHeld s).ownAddress = s.ownAddress ∧ (takeHeld s).tally.haulTotal = s.tally.haulTotal ∧
    (takeHeld s).tally.packedTotal = s.tally.packedTotal ∧ (takeHeld s).tally.cutwait = s.tally.cutwait ∧
    (takeHeld s).tally.haulTaken = s.tally.haulTaken ∧ (takeHeld s).tally.shortHaul = s.tally.shortHaul ∧
    (takeHeld s).tally.clippedHaul = s.tally.clippedHaul ∧
    (takeHeld s).lay.rejectedTurns = s.lay.rejectedTurns ∧ (takeHeld s).lay.ignoredTurns = s.lay.ignoredTurns ∧
    (takeHeld s).coil.openCoil.number = s.coil.openCoil.number ∧
    (takeHeld s).coil.openCoil.length = s.coil.openCoil.length ∧
    (takeHeld s).coil.openCoil.start = s.coil.openCoil.start ∧
    (takeHeld s).coil.openCoil.rows = s.coil.openCoil.rows ∧
    (takeHeld s).coil.openCoil.worstDeviation = s.coil.openCoil.worstDeviation ∧
    (takeHeld s).coil.openCoil.driftWindows = s.coil.openCoil.driftWindows ∧
    (takeHeld s).coil.openCoil.grade = s.coil.openCoil.grade ∧
    (takeHeld s).coil.openCoil.overdue = s.coil.openCoil.overdue ∧
    (takeHeld s).coil.openCoil.overlengthNoted = s.coil.openCoil.overlengthNoted ∧
    (takeHeld s).coil.queue = s.coil.queue ∧ (takeHeld s).coil.counter = s.coil.counter ∧
    (takeHeld s).coil.pendingTake = s.coil.pendingTake ∧
    (takeHeld s).coil.rejectedFrames = s.coil.rejectedFrames ∧
    (takeHeld s).coil.marksMissed = s.coil.marksMissed ∧ (takeHeld s).coil.takeOverruns = s.coil.takeOverruns ∧
    (takeHeld s).coil.nacksNotSent = s.coil.nacksNotSent ∧
    (takeHeld s).coil.refusedChangeovers = s.coil.refusedChangeovers ∧
    (takeHeld s).portU.receiver = s.portU.receiver ∧ (takeHeld s).portU.transmitter = s.portU.transmitter ∧
    (takeHeld s).portU.holdIn = s.portU.holdIn ∧ (takeHeld s).portD.receiver = s.portD.receiver ∧
    (takeHeld s).portD.transmitter = s.portD.transmitter ∧ (takeHeld s).portD.holdIn = s.portD.holdIn ∧
    (takeHeld s).store.fqd = s.store.fqd ∧ (takeHeld s).store.fqu = s.store.fqu ∧
    (takeHeld s).store.latchInFlight = s.store.latchInFlight ∧ (takeHeld s).store.arriving = s.store.arriving ∧
    (takeHeld s).classifier = s.classifier ∧ (takeHeld s).resetIn = s.resetIn ∧ (takeHeld s).pending = s.pending := by
  unfold takeHeld
  try dsimp only
  repeat' split
  all_goals simp

/-- R158. -/
@[simp] theorem endArrival_keeps (s : State) :
    (endArrival s).mode = s.mode ∧ (endArrival s).ownAddress = s.ownAddress ∧ (endArrival s).tables = s.tables ∧
    (endArrival s).tally = s.tally ∧ (endArrival s).lay = s.lay ∧ (endArrival s).mesh = s.mesh ∧
    (endArrival s).coil = s.coil ∧ (endArrival s).faults = s.faults ∧ (endArrival s).portU = s.portU ∧
    (endArrival s).portD = s.portD ∧ (endArrival s).store.fqd = s.store.fqd ∧
    (endArrival s).store.fqu = s.store.fqu ∧ (endArrival s).store.iqd = s.store.iqd ∧
    (endArrival s).store.iqu = s.store.iqu ∧ (endArrival s).store.latchPending = s.store.latchPending ∧
    (endArrival s).store.latchInFlight = s.store.latchInFlight ∧ (endArrival s).store.hold = s.store.hold ∧
    (endArrival s).store.reserved = s.store.reserved ∧ (endArrival s).classifier = s.classifier ∧
    (endArrival s).resetIn = s.resetIn ∧ (endArrival s).freeDraws = s.freeDraws ∧
    (endArrival s).pending = s.pending := by
  simp [endArrival]

end Sys2Proof.Machine
end

