-- ==== Sys2Proof/Laws/Classifier.lean ====
section
/-! SUPPORT. What the classifier's stages can change. -/

namespace Sys2Proof.Machine

/-- R180. -/
@[simp] theorem countUnsupported_keeps (s : State) :
    (countUnsupported s).mode = s.mode ∧ (countUnsupported s).ownAddress = s.ownAddress ∧
    (countUnsupported s).tables = s.tables ∧ (countUnsupported s).tally = s.tally ∧
    (countUnsupported s).lay = s.lay ∧ (countUnsupported s).mesh = s.mesh ∧ (countUnsupported s).coil = s.coil ∧
    (countUnsupported s).faults = s.faults ∧ (countUnsupported s).portU = s.portU ∧
    (countUnsupported s).portD = s.portD ∧ (countUnsupported s).store = s.store ∧
    (countUnsupported s).holdOut = s.holdOut ∧ (countUnsupported s).resetIn = s.resetIn ∧
    (countUnsupported s).freeDraws = s.freeDraws ∧ (countUnsupported s).pending = s.pending := by
  repeat' apply And.intro
  all_goals rfl

/-- R182. -/
@[simp] theorem nackUnsupportedFrame_keeps (p : Port) (f : Frame) (s : State) :
    (nackUnsupportedFrame p f s).mode = s.mode ∧ (nackUnsupportedFrame p f s).ownAddress = s.ownAddress ∧
    (nackUnsupportedFrame p f s).tables = s.tables ∧ (nackUnsupportedFrame p f s).tally = s.tally ∧
    (nackUnsupportedFrame p f s).lay = s.lay ∧ (nackUnsupportedFrame p f s).mesh = s.mesh ∧
    (nackUnsupportedFrame p f s).coil = s.coil ∧ (nackUnsupportedFrame p f s).faults = s.faults ∧
    (nackUnsupportedFrame p f s).portU = s.portU ∧ (nackUnsupportedFrame p f s).portD = s.portD ∧
    (nackUnsupportedFrame p f s).store.fqd = s.store.fqd ∧
    (nackUnsupportedFrame p f s).store.fqu = s.store.fqu ∧
    (nackUnsupportedFrame p f s).store.latchPending = s.store.latchPending ∧
    (nackUnsupportedFrame p f s).store.latchInFlight = s.store.latchInFlight ∧
    (nackUnsupportedFrame p f s).store.hold = s.store.hold ∧
    (nackUnsupportedFrame p f s).store.arriving = s.store.arriving ∧
    (nackUnsupportedFrame p f s).store.reserved = s.store.reserved ∧
    (nackUnsupportedFrame p f s).holdOut = s.holdOut ∧ (nackUnsupportedFrame p f s).resetIn = s.resetIn ∧
    (nackUnsupportedFrame p f s).freeDraws = s.freeDraws ∧ (nackUnsupportedFrame p f s).pending = s.pending := by
  unfold nackUnsupportedFrame
  repeat' split
  all_goals simp

/-- R180. -/
@[simp] theorem refuseFrame_keeps (p : Port) (f : Frame) (s : State) :
    (refuseFrame p f s).mode = s.mode ∧ (refuseFrame p f s).ownAddress = s.ownAddress ∧
    (refuseFrame p f s).tables = s.tables ∧ (refuseFrame p f s).tally = s.tally ∧
    (refuseFrame p f s).lay = s.lay ∧ (refuseFrame p f s).mesh = s.mesh ∧ (refuseFrame p f s).coil = s.coil ∧
    (refuseFrame p f s).faults = s.faults ∧ (refuseFrame p f s).portU = s.portU ∧
    (refuseFrame p f s).portD = s.portD ∧ (refuseFrame p f s).store.fqd = s.store.fqd ∧
    (refuseFrame p f s).store.fqu = s.store.fqu ∧
    (refuseFrame p f s).store.latchPending = s.store.latchPending ∧
    (refuseFrame p f s).store.latchInFlight = s.store.latchInFlight ∧
    (refuseFrame p f s).store.hold = s.store.hold ∧ (refuseFrame p f s).store.arriving = s.store.arriving ∧
    (refuseFrame p f s).store.reserved = s.store.reserved ∧ (refuseFrame p f s).holdOut = s.holdOut ∧
    (refuseFrame p f s).resetIn = s.resetIn ∧ (refuseFrame p f s).freeDraws = s.freeDraws ∧
    (refuseFrame p f s).pending = s.pending := by
  simp [refuseFrame]

/-- R180. -/
@[simp] theorem ownMreq_keeps (role : Role) (f : Frame) (s : State) :
    (ownMreq role f s).ownAddress = s.ownAddress ∧ (ownMreq role f s).tally.haulTotal = s.tally.haulTotal ∧
    (ownMreq role f s).tally.packedTotal = s.tally.packedTotal ∧
    (ownMreq role f s).tally.cutwait = s.tally.cutwait ∧
    (ownMreq role f s).tally.haulTaken = s.tally.haulTaken ∧
    (ownMreq role f s).tally.shortHaul = s.tally.shortHaul ∧
    (ownMreq role f s).tally.clippedHaul = s.tally.clippedHaul ∧
    (ownMreq role f s).lay.rejectedTurns = s.lay.rejectedTurns ∧
    (ownMreq role f s).lay.ignoredTurns = s.lay.ignoredTurns ∧
    (ownMreq role f s).coil.openCoil.number = s.coil.openCoil.number ∧
    (ownMreq role f s).coil.openCoil.length = s.coil.openCoil.length ∧
    (ownMreq role f s).coil.openCoil.start = s.coil.openCoil.start ∧
    (ownMreq role f s).coil.openCoil.rows = s.coil.openCoil.rows ∧
    (ownMreq role f s).coil.openCoil.worstDeviation = s.coil.openCoil.worstDeviation ∧
    (ownMreq role f s).coil.openCoil.driftWindows = s.coil.openCoil.driftWindows ∧
    (ownMreq role f s).coil.openCoil.grade = s.coil.openCoil.grade ∧
    (ownMreq role f s).coil.openCoil.overdue = s.coil.openCoil.overdue ∧
    (ownMreq role f s).coil.openCoil.overlengthNoted = s.coil.openCoil.overlengthNoted ∧
    (ownMreq role f s).coil.queue = s.coil.queue ∧ (ownMreq role f s).coil.counter = s.coil.counter ∧
    (ownMreq role f s).coil.pendingTake = s.coil.pendingTake ∧
    (ownMreq role f s).coil.rejectedFrames = s.coil.rejectedFrames ∧
    (ownMreq role f s).coil.marksMissed = s.coil.marksMissed ∧
    (ownMreq role f s).coil.takeOverruns = s.coil.takeOverruns ∧
    (ownMreq role f s).coil.nacksNotSent = s.coil.nacksNotSent ∧
    (ownMreq role f s).coil.refusedChangeovers = s.coil.refusedChangeovers ∧
    (ownMreq role f s).portU.receiver = s.portU.receiver ∧
    (ownMreq role f s).portU.transmitter = s.portU.transmitter ∧
    (ownMreq role f s).portU.holdIn = s.portU.holdIn ∧ (ownMreq role f s).portD.receiver = s.portD.receiver ∧
    (ownMreq role f s).portD.transmitter = s.portD.transmitter ∧
    (ownMreq role f s).portD.holdIn = s.portD.holdIn ∧ (ownMreq role f s).store.fqd = s.store.fqd ∧
    (ownMreq role f s).store.fqu = s.store.fqu ∧
    (ownMreq role f s).store.latchInFlight = s.store.latchInFlight ∧ (ownMreq role f s).resetIn = s.resetIn ∧
    (ownMreq role f s).pending = s.pending := by
  unfold ownMreq
  try dsimp only
  repeat' split
  all_goals simp

/-- R180. -/
@[simp] theorem forOwn_keeps (p : Port) (role : Role) (f : Frame) (s : State) :
    (forOwn p role f s).ownAddress = s.ownAddress ∧ (forOwn p role f s).tally.haulTotal = s.tally.haulTotal ∧
    (forOwn p role f s).tally.haulTaken = s.tally.haulTaken ∧
    (forOwn p role f s).tally.shortHaul = s.tally.shortHaul ∧
    (forOwn p role f s).tally.clippedHaul = s.tally.clippedHaul ∧
    (forOwn p role f s).lay.rejectedTurns = s.lay.rejectedTurns ∧
    (forOwn p role f s).lay.ignoredTurns = s.lay.ignoredTurns ∧
    (forOwn p role f s).coil.marksMissed = s.coil.marksMissed ∧
    (forOwn p role f s).portU.receiver = s.portU.receiver ∧
    (forOwn p role f s).portU.transmitter = s.portU.transmitter ∧
    (forOwn p role f s).portU.holdIn = s.portU.holdIn ∧ (forOwn p role f s).portD.receiver = s.portD.receiver ∧
    (forOwn p role f s).portD.transmitter = s.portD.transmitter ∧
    (forOwn p role f s).portD.holdIn = s.portD.holdIn ∧ (forOwn p role f s).store.fqd = s.store.fqd ∧
    (forOwn p role f s).store.fqu = s.store.fqu ∧
    (forOwn p role f s).store.latchInFlight = s.store.latchInFlight ∧ (forOwn p role f s).resetIn = s.resetIn ∧
    (forOwn p role f s).pending = s.pending := by
  unfold forOwn
  try dsimp only
  repeat' split
  all_goals simp

/-- R183. -/
@[simp] theorem tap_keeps (row : StationRow) (f : Frame) (s : State) :
    (tap row f s).ownAddress = s.ownAddress ∧ (tap row f s).tables = s.tables ∧
    (tap row f s).tally.packedTotal = s.tally.packedTotal ∧ (tap row f s).tally.cutwait = s.tally.cutwait ∧
    (tap row f s).tally.loaded = s.tally.loaded ∧ (tap row f s).coil.openCoil.number = s.coil.openCoil.number ∧
    (tap row f s).coil.openCoil.productId = s.coil.openCoil.productId ∧
    (tap row f s).coil.openCoil.net = s.coil.openCoil.net ∧
    (tap row f s).coil.openCoil.start = s.coil.openCoil.start ∧
    (tap row f s).coil.openCoil.grade = s.coil.openCoil.grade ∧
    (tap row f s).coil.openCoil.overdue = s.coil.openCoil.overdue ∧ (tap row f s).coil.queue = s.coil.queue ∧
    (tap row f s).coil.counter = s.coil.counter ∧ (tap row f s).coil.current = s.coil.current ∧
    (tap row f s).coil.next = s.coil.next ∧ (tap row f s).coil.pendingTake = s.coil.pendingTake ∧
    (tap row f s).coil.rejectedFrames = s.coil.rejectedFrames ∧
    (tap row f s).coil.takeOverruns = s.coil.takeOverruns ∧
    (tap row f s).coil.nacksNotSent = s.coil.nacksNotSent ∧
    (tap row f s).coil.refusedChangeovers = s.coil.refusedChangeovers ∧ (tap row f s).portU = s.portU ∧
    (tap row f s).portD = s.portD ∧ (tap row f s).store.fqd = s.store.fqd ∧
    (tap row f s).store.fqu = s.store.fqu ∧ (tap row f s).store.latchInFlight = s.store.latchInFlight ∧
    (tap row f s).store.hold = s.store.hold ∧ (tap row f s).store.arriving = s.store.arriving ∧
    (tap row f s).store.reserved = s.store.reserved ∧ (tap row f s).holdOut = s.holdOut ∧
    (tap row f s).classifier = s.classifier ∧ (tap row f s).resetIn = s.resetIn ∧
    (tap row f s).freeDraws = s.freeDraws ∧ (tap row f s).pending = s.pending := by
  unfold tap
  try dsimp only
  repeat' split
  all_goals simp

/-- R186. -/
@[simp] theorem place_keeps (toward : Port) (action : Action) (f : Frame) (s : State) :
    (place toward action f s).mode = s.mode ∧ (place toward action f s).ownAddress = s.ownAddress ∧
    (place toward action f s).tables = s.tables ∧ (place toward action f s).tally = s.tally ∧
    (place toward action f s).lay = s.lay ∧ (place toward action f s).mesh = s.mesh ∧
    (place toward action f s).coil = s.coil ∧ (place toward action f s).faults = s.faults ∧
    (place toward action f s).portU = s.portU ∧ (place toward action f s).portD = s.portD ∧
    (place toward action f s).store.iqd = s.store.iqd ∧ (place toward action f s).store.iqu = s.store.iqu ∧
    (place toward action f s).store.latchPending = s.store.latchPending ∧
    (place toward action f s).store.latchInFlight = s.store.latchInFlight ∧
    (place toward action f s).store.hold = s.store.hold ∧
    (place toward action f s).store.reserved = s.store.reserved ∧
    (place toward action f s).holdOut = s.holdOut ∧ (place toward action f s).resetIn = s.resetIn ∧
    (place toward action f s).freeDraws = s.freeDraws ∧ (place toward action f s).pending = s.pending := by
  unfold place
  dsimp only
  repeat' split
  all_goals simp

/-- R186. -/
@[simp] theorem actByEntry_keeps (toward : Port) (entry : Action) (f : Frame) (s : State) :
    (actByEntry toward entry f s).mode = s.mode ∧ (actByEntry toward entry f s).ownAddress = s.ownAddress ∧
    (actByEntry toward entry f s).tables = s.tables ∧ (actByEntry toward entry f s).tally = s.tally ∧
    (actByEntry toward entry f s).lay = s.lay ∧ (actByEntry toward entry f s).mesh = s.mesh ∧
    (actByEntry toward entry f s).coil = s.coil ∧ (actByEntry toward entry f s).faults = s.faults ∧
    (actByEntry toward entry f s).portU = s.portU ∧ (actByEntry toward entry f s).portD = s.portD ∧
    (actByEntry toward entry f s).store.iqd = s.store.iqd ∧
    (actByEntry toward entry f s).store.iqu = s.store.iqu ∧
    (actByEntry toward entry f s).store.latchPending = s.store.latchPending ∧
    (actByEntry toward entry f s).store.latchInFlight = s.store.latchInFlight ∧
    (actByEntry toward entry f s).store.hold = s.store.hold ∧
    (actByEntry toward entry f s).store.reserved = s.store.reserved ∧
    (actByEntry toward entry f s).holdOut = s.holdOut ∧ (actByEntry toward entry f s).resetIn = s.resetIn ∧
    (actByEntry toward entry f s).freeDraws = s.freeDraws ∧ (actByEntry toward entry f s).pending = s.pending := by
  unfold actByEntry
  try dsimp only
  repeat' split
  all_goals simp

/-- R186. -/
@[simp] theorem act_keeps (toward : Port) (f : Frame) (s : State) :
    (act toward f s).mode = s.mode ∧ (act toward f s).ownAddress = s.ownAddress ∧
    (act toward f s).tables = s.tables ∧ (act toward f s).tally = s.tally ∧ (act toward f s).lay = s.lay ∧
    (act toward f s).mesh = s.mesh ∧ (act toward f s).coil = s.coil ∧ (act toward f s).faults = s.faults ∧
    (act toward f s).portU = s.portU ∧ (act toward f s).portD = s.portD ∧
    (act toward f s).store.iqd = s.store.iqd ∧ (act toward f s).store.iqu = s.store.iqu ∧
    (act toward f s).store.latchPending = s.store.latchPending ∧
    (act toward f s).store.latchInFlight = s.store.latchInFlight ∧ (act toward f s).store.hold = s.store.hold ∧
    (act toward f s).store.reserved = s.store.reserved ∧ (act toward f s).holdOut = s.holdOut ∧
    (act toward f s).resetIn = s.resetIn ∧ (act toward f s).freeDraws = s.freeDraws ∧
    (act toward f s).pending = s.pending := by
  unfold act
  try dsimp only
  repeat' split
  all_goals simp

/-- R184. -/
@[simp] theorem routeAndAct_keeps (p : Port) (f : Frame) (s : State) :
    (routeAndAct p f s).mode = s.mode ∧ (routeAndAct p f s).ownAddress = s.ownAddress ∧
    (routeAndAct p f s).tables = s.tables ∧ (routeAndAct p f s).tally = s.tally ∧
    (routeAndAct p f s).lay = s.lay ∧ (routeAndAct p f s).mesh = s.mesh ∧ (routeAndAct p f s).coil = s.coil ∧
    (routeAndAct p f s).faults = s.faults ∧ (routeAndAct p f s).portU = s.portU ∧
    (routeAndAct p f s).portD = s.portD ∧ (routeAndAct p f s).store.iqd = s.store.iqd ∧
    (routeAndAct p f s).store.iqu = s.store.iqu ∧
    (routeAndAct p f s).store.latchPending = s.store.latchPending ∧
    (routeAndAct p f s).store.latchInFlight = s.store.latchInFlight ∧
    (routeAndAct p f s).store.hold = s.store.hold ∧ (routeAndAct p f s).store.reserved = s.store.reserved ∧
    (routeAndAct p f s).holdOut = s.holdOut ∧ (routeAndAct p f s).resetIn = s.resetIn ∧
    (routeAndAct p f s).freeDraws = s.freeDraws ∧ (routeAndAct p f s).pending = s.pending := by
  unfold routeAndAct
  try dsimp only
  repeat' split
  all_goals simp

/-- R179 to R186. -/
@[simp] theorem classifyKnown_keeps (p : Port) (row : StationRow) (f : Frame) (s : State) :
    (classifyKnown p row f s).ownAddress = s.ownAddress ∧
    (classifyKnown p row f s).portU.receiver = s.portU.receiver ∧
    (classifyKnown p row f s).portU.transmitter = s.portU.transmitter ∧
    (classifyKnown p row f s).portU.holdIn = s.portU.holdIn ∧
    (classifyKnown p row f s).portD.receiver = s.portD.receiver ∧
    (classifyKnown p row f s).portD.transmitter = s.portD.transmitter ∧
    (classifyKnown p row f s).portD.holdIn = s.portD.holdIn ∧
    (classifyKnown p row f s).store.latchInFlight = s.store.latchInFlight ∧
    (classifyKnown p row f s).resetIn = s.resetIn ∧ (classifyKnown p row f s).pending = s.pending := by
  unfold classifyKnown
  try dsimp only
  repeat' split
  all_goals simp

/-- R178. -/
@[simp] theorem classify_keeps (p : Port) (f : Frame) (s : State) :
    (classify p f s).ownAddress = s.ownAddress ∧ (classify p f s).portU.receiver = s.portU.receiver ∧
    (classify p f s).portU.transmitter = s.portU.transmitter ∧ (classify p f s).portU.holdIn = s.portU.holdIn ∧
    (classify p f s).portD.receiver = s.portD.receiver ∧
    (classify p f s).portD.transmitter = s.portD.transmitter ∧ (classify p f s).portD.holdIn = s.portD.holdIn ∧
    (classify p f s).store.latchInFlight = s.store.latchInFlight ∧ (classify p f s).resetIn = s.resetIn ∧
    (classify p f s).pending = s.pending := by
  unfold classify
  dsimp only
  repeat' split
  all_goals simp

/-- R180: what a frame for the LK36 can lead to. -/
theorem forOwn_cases {P : State → Prop} {p : Port} {role : Role} {f : Frame} {s : State}
    (refused : P (refuseFrame p f s)) (counted : P (countUnsupported s))
    (foreign : P (raise .foreignMgmt (some f.src.toNat) 1 0 s)) (request : P (handMreq f (countConsumed s)))
    (cut : P (cutdoneReceived f.payload (countConsumed s))) (take : P (takeReceived (countConsumed s)))
    (packed : P (packedReceived f.src f.payload (countConsumed s))) : P (forOwn p role f s) := by
  unfold forOwn ownMreq
  repeat' split
  all_goals with_reducible assumption

/-- R178, R179, R181: what the classification of a frame can lead to. -/
theorem classify_cases {P : State → Prop} {p : Port} {f : Frame} {s : State}
    (request : P (handMreq f (countConsumed s)))
    (unknown : P (s.countClassifier (fun c => { c with unknownSources := bump c.unknownSources })))
    (misplaced : P (raise .misplacedStation (some f.src.toNat) 1 0 s))
    (own : P (forOwn p (s.stationOf f.src).role f s))
    (passing : P (routeAndAct p f (tap (s.stationOf f.src) f s))) : P (classify p f s) := by
  unfold classify classifyKnown
  dsimp only
  repeat' split
  all_goals with_reducible assumption

end Sys2Proof.Machine
end

