-- ==== Sys2Proof/Laws/Ports.lean ====
section
/-! SUPPORT. What the ports' operations and the arbiters can change. -/

namespace Sys2Proof.Machine

/-- R139. -/
@[simp] theorem countCharError_keeps (p : Port) (s : State) :
    (countCharError p s).mode = s.mode ∧ (countCharError p s).ownAddress = s.ownAddress ∧
    (countCharError p s).tables = s.tables ∧ (countCharError p s).tally = s.tally ∧
    (countCharError p s).lay = s.lay ∧ (countCharError p s).mesh = s.mesh ∧ (countCharError p s).coil = s.coil ∧
    (countCharError p s).faults = s.faults ∧ (countCharError p s).store = s.store ∧
    (countCharError p s).holdOut = s.holdOut ∧ (countCharError p s).classifier = s.classifier ∧
    (countCharError p s).resetIn = s.resetIn ∧ (countCharError p s).freeDraws = s.freeDraws ∧
    (countCharError p s).pending = s.pending := by
  simp [countCharError]

/-- R143, R145. -/
@[simp] theorem countFormatDrop_keeps (p : Port) (s : State) :
    (countFormatDrop p s).mode = s.mode ∧ (countFormatDrop p s).ownAddress = s.ownAddress ∧
    (countFormatDrop p s).tables = s.tables ∧ (countFormatDrop p s).tally = s.tally ∧
    (countFormatDrop p s).lay = s.lay ∧ (countFormatDrop p s).mesh = s.mesh ∧
    (countFormatDrop p s).coil = s.coil ∧ (countFormatDrop p s).faults = s.faults ∧
    (countFormatDrop p s).store = s.store ∧ (countFormatDrop p s).holdOut = s.holdOut ∧
    (countFormatDrop p s).classifier = s.classifier ∧ (countFormatDrop p s).resetIn = s.resetIn ∧
    (countFormatDrop p s).freeDraws = s.freeDraws ∧ (countFormatDrop p s).pending = s.pending := by
  simp [countFormatDrop]

/-- R145. -/
@[simp] theorem abandonFrame_keeps (p : Port) (s : State) :
    (abandonFrame p s).mode = s.mode ∧ (abandonFrame p s).ownAddress = s.ownAddress ∧
    (abandonFrame p s).tables = s.tables ∧ (abandonFrame p s).tally = s.tally ∧ (abandonFrame p s).lay = s.lay ∧
    (abandonFrame p s).mesh = s.mesh ∧ (abandonFrame p s).coil = s.coil ∧ (abandonFrame p s).faults = s.faults ∧
    (abandonFrame p s).store = s.store ∧ (abandonFrame p s).classifier = s.classifier ∧
    (abandonFrame p s).resetIn = s.resetIn ∧ (abandonFrame p s).freeDraws = s.freeDraws ∧
    (abandonFrame p s).pending = s.pending := by
  simp [abandonFrame]

/-- R143, R144. -/
@[simp] theorem headerReceived_keeps (p : Port) (v : Byte) (s : State) :
    (headerReceived p v s).mode = s.mode ∧ (headerReceived p v s).ownAddress = s.ownAddress ∧
    (headerReceived p v s).tables = s.tables ∧ (headerReceived p v s).tally = s.tally ∧
    (headerReceived p v s).lay = s.lay ∧ (headerReceived p v s).mesh = s.mesh ∧
    (headerReceived p v s).coil = s.coil ∧ (headerReceived p v s).faults = s.faults ∧
    (headerReceived p v s).store = s.store ∧ (headerReceived p v s).classifier = s.classifier ∧
    (headerReceived p v s).resetIn = s.resetIn ∧ (headerReceived p v s).freeDraws = s.freeDraws ∧
    (headerReceived p v s).pending = s.pending := by
  unfold headerReceived
  try dsimp only
  repeat' split
  all_goals simp

/-- R145. -/
@[simp] theorem truncateFrame_keeps (p : Port) (v : Byte) (s : State) :
    (truncateFrame p v s).mode = s.mode ∧ (truncateFrame p v s).ownAddress = s.ownAddress ∧
    (truncateFrame p v s).tables = s.tables ∧ (truncateFrame p v s).tally = s.tally ∧
    (truncateFrame p v s).lay = s.lay ∧ (truncateFrame p v s).mesh = s.mesh ∧
    (truncateFrame p v s).coil = s.coil ∧ (truncateFrame p v s).faults = s.faults ∧
    (truncateFrame p v s).store = s.store ∧ (truncateFrame p v s).classifier = s.classifier ∧
    (truncateFrame p v s).resetIn = s.resetIn ∧ (truncateFrame p v s).freeDraws = s.freeDraws ∧
    (truncateFrame p v s).pending = s.pending := by
  unfold truncateFrame
  try dsimp only
  repeat' split
  all_goals simp

/-- R139, R143, R145, R147. -/
@[simp] theorem errorReceived_keeps (p : Port) (s : State) :
    (errorReceived p s).mode = s.mode ∧ (errorReceived p s).ownAddress = s.ownAddress ∧
    (errorReceived p s).tables = s.tables ∧ (errorReceived p s).tally = s.tally ∧
    (errorReceived p s).lay = s.lay ∧ (errorReceived p s).mesh = s.mesh ∧ (errorReceived p s).coil = s.coil ∧
    (errorReceived p s).faults = s.faults ∧ (errorReceived p s).store = s.store ∧
    (errorReceived p s).classifier = s.classifier ∧ (errorReceived p s).resetIn = s.resetIn ∧
    (errorReceived p s).freeDraws = s.freeDraws ∧ (errorReceived p s).pending = s.pending := by
  unfold errorReceived
  try dsimp only
  repeat' split
  all_goals simp

/-- R146. -/
@[simp] theorem arrive_keeps (p : Port) (f : Frame) (s : State) :
    (arrive p f s).ownAddress = s.ownAddress ∧ (arrive p f s).store.latchInFlight = s.store.latchInFlight ∧
    (arrive p f s).resetIn = s.resetIn ∧ (arrive p f s).pending = s.pending := by
  simp [arrive]

/-- R146. -/
@[simp] theorem frameComplete_keeps (p : Port) (stored : List Byte) (s : State) :
    (frameComplete p stored s).ownAddress = s.ownAddress ∧
    (frameComplete p stored s).store.latchInFlight = s.store.latchInFlight ∧
    (frameComplete p stored s).resetIn = s.resetIn ∧ (frameComplete p stored s).pending = s.pending := by
  unfold frameComplete
  try dsimp only
  repeat' split
  all_goals simp

/-- R145. -/
@[simp] theorem storeCharacter_keeps (p : Port) (stored : List Byte) (s : State) :
    (storeCharacter p stored s).ownAddress = s.ownAddress ∧
    (storeCharacter p stored s).store.latchInFlight = s.store.latchInFlight ∧
    (storeCharacter p stored s).resetIn = s.resetIn ∧ (storeCharacter p stored s).pending = s.pending := by
  unfold storeCharacter
  try dsimp only
  repeat' split
  all_goals simp

/-- R145. -/
@[simp] theorem fillReceived_keeps (p : Port) (stored : List Byte) (c : LineChar) (s : State) :
    (fillReceived p stored c s).ownAddress = s.ownAddress ∧
    (fillReceived p stored c s).store.latchInFlight = s.store.latchInFlight ∧
    (fillReceived p stored c s).resetIn = s.resetIn ∧ (fillReceived p stored c s).pending = s.pending := by
  unfold fillReceived
  try dsimp only
  repeat' split
  all_goals simp

/-- R143, R145, R147. -/
@[simp] theorem goodReceived_keeps (p : Port) (c : LineChar) (s : State) :
    (goodReceived p c s).ownAddress = s.ownAddress ∧
    (goodReceived p c s).store.latchInFlight = s.store.latchInFlight ∧
    (goodReceived p c s).resetIn = s.resetIn ∧ (goodReceived p c s).pending = s.pending := by
  unfold goodReceived
  try dsimp only
  repeat' split
  all_goals simp

/-- R142. -/
@[simp] theorem characterReceived_keeps (p : Port) (c : LineChar) (s : State) :
    (characterReceived p c s).ownAddress = s.ownAddress ∧
    (characterReceived p c s).store.latchInFlight = s.store.latchInFlight ∧
    (characterReceived p c s).resetIn = s.resetIn ∧ (characterReceived p c s).pending = s.pending := by
  unfold characterReceived
  try dsimp only
  repeat' split
  all_goals simp

/-- R149. -/
@[simp] theorem startFrame_keeps (p : Port) (f : Frame) (o : Origin) (s : State) :
    (startFrame p f o s).mode = s.mode ∧ (startFrame p f o s).ownAddress = s.ownAddress ∧
    (startFrame p f o s).tables = s.tables ∧ (startFrame p f o s).tally = s.tally ∧
    (startFrame p f o s).lay = s.lay ∧ (startFrame p f o s).mesh = s.mesh ∧ (startFrame p f o s).coil = s.coil ∧
    (startFrame p f o s).faults = s.faults ∧ (startFrame p f o s).store = s.store ∧
    (startFrame p f o s).holdOut = s.holdOut ∧ (startFrame p f o s).classifier = s.classifier ∧
    (startFrame p f o s).resetIn = s.resetIn ∧ (startFrame p f o s).freeDraws = s.freeDraws ∧
    (startFrame p f o s).pending = s.pending := by
  simp [startFrame]

/-- R166. -/
@[simp] theorem startLatch_keeps (c : SpeedCommand) (s : State) :
    (startLatch c s).mode = s.mode ∧ (startLatch c s).ownAddress = s.ownAddress ∧
    (startLatch c s).tables = s.tables ∧ (startLatch c s).tally = s.tally ∧ (startLatch c s).lay = s.lay ∧
    (startLatch c s).mesh = s.mesh ∧ (startLatch c s).coil = s.coil ∧ (startLatch c s).faults = s.faults ∧
    (startLatch c s).store.fqd = s.store.fqd ∧ (startLatch c s).store.fqu = s.store.fqu ∧
    (startLatch c s).store.iqd = s.store.iqd ∧ (startLatch c s).store.iqu = s.store.iqu ∧
    (startLatch c s).store.hold = s.store.hold ∧ (startLatch c s).store.arriving = s.store.arriving ∧
    (startLatch c s).store.reserved = s.store.reserved ∧ (startLatch c s).holdOut = s.holdOut ∧
    (startLatch c s).classifier = s.classifier ∧ (startLatch c s).resetIn = s.resetIn ∧
    (startLatch c s).freeDraws = s.freeDraws ∧ (startLatch c s).pending = s.pending := by
  simp [startLatch]

/-- R187. -/
@[simp] theorem leaveFqd_keeps (e : FwdFrame) (s : State) :
    ((leaveFqd e s).2).mode = s.mode ∧ ((leaveFqd e s).2).ownAddress = s.ownAddress ∧
    ((leaveFqd e s).2).tables = s.tables ∧ ((leaveFqd e s).2).tally = s.tally ∧ ((leaveFqd e s).2).lay = s.lay ∧
    ((leaveFqd e s).2).mesh = s.mesh ∧ ((leaveFqd e s).2).coil = s.coil ∧ ((leaveFqd e s).2).faults = s.faults ∧
    ((leaveFqd e s).2).portU = s.portU ∧ ((leaveFqd e s).2).portD = s.portD ∧
    ((leaveFqd e s).2).store = s.store ∧ ((leaveFqd e s).2).holdOut = s.holdOut ∧
    ((leaveFqd e s).2).resetIn = s.resetIn ∧ ((leaveFqd e s).2).freeDraws = s.freeDraws ∧
    ((leaveFqd e s).2).pending = s.pending := by
  unfold leaveFqd rewriteSetpoint countSetpoint
  try dsimp only
  repeat' split
  all_goals simp

/-- R166, R189. -/
@[simp] theorem startFqd_keeps (l : List FwdFrame) (s : State) :
    (startFqd l s).mode = s.mode ∧ (startFqd l s).ownAddress = s.ownAddress ∧ (startFqd l s).tables = s.tables ∧
    (startFqd l s).tally = s.tally ∧ (startFqd l s).lay = s.lay ∧ (startFqd l s).mesh = s.mesh ∧
    (startFqd l s).coil = s.coil ∧ (startFqd l s).faults = s.faults ∧ (startFqd l s).store.fqu = s.store.fqu ∧
    (startFqd l s).store.iqd = s.store.iqd ∧ (startFqd l s).store.iqu = s.store.iqu ∧
    (startFqd l s).store.latchPending = s.store.latchPending ∧
    (startFqd l s).store.latchInFlight = s.store.latchInFlight ∧ (startFqd l s).store.hold = s.store.hold ∧
    (startFqd l s).store.arriving = s.store.arriving ∧ (startFqd l s).store.reserved = s.store.reserved ∧
    (startFqd l s).resetIn = s.resetIn ∧ (startFqd l s).freeDraws = s.freeDraws ∧
    (startFqd l s).pending = s.pending := by
  induction l generalizing s with
  | nil => simp [startFqd]
  | cons e rest ih =>
    unfold startFqd
    dsimp only
    split <;> simp [ih]

/-- R166. -/
@[simp] theorem arbiterD_keeps (s : State) :
    (arbiterD s).mode = s.mode ∧ (arbiterD s).ownAddress = s.ownAddress ∧ (arbiterD s).tables = s.tables ∧
    (arbiterD s).tally = s.tally ∧ (arbiterD s).lay = s.lay ∧ (arbiterD s).mesh = s.mesh ∧
    (arbiterD s).coil = s.coil ∧ (arbiterD s).faults = s.faults ∧ (arbiterD s).store.fqu = s.store.fqu ∧
    (arbiterD s).store.iqu = s.store.iqu ∧ (arbiterD s).store.hold = s.store.hold ∧
    (arbiterD s).store.arriving = s.store.arriving ∧ (arbiterD s).store.reserved = s.store.reserved ∧
    (arbiterD s).resetIn = s.resetIn ∧ (arbiterD s).freeDraws = s.freeDraws ∧ (arbiterD s).pending = s.pending := by
  unfold arbiterD
  try dsimp only
  repeat' split
  all_goals simp

/-- R167. -/
@[simp] theorem arbiterU_keeps (s : State) :
    (arbiterU s).mode = s.mode ∧ (arbiterU s).ownAddress = s.ownAddress ∧ (arbiterU s).tables = s.tables ∧
    (arbiterU s).tally = s.tally ∧ (arbiterU s).lay = s.lay ∧ (arbiterU s).mesh = s.mesh ∧
    (arbiterU s).coil = s.coil ∧ (arbiterU s).faults = s.faults ∧ (arbiterU s).store.fqd = s.store.fqd ∧
    (arbiterU s).store.iqd = s.store.iqd ∧ (arbiterU s).store.latchPending = s.store.latchPending ∧
    (arbiterU s).store.latchInFlight = s.store.latchInFlight ∧ (arbiterU s).store.hold = s.store.hold ∧
    (arbiterU s).store.arriving = s.store.arriving ∧ (arbiterU s).store.reserved = s.store.reserved ∧
    (arbiterU s).holdOut = s.holdOut ∧ (arbiterU s).classifier = s.classifier ∧
    (arbiterU s).resetIn = s.resetIn ∧ (arbiterU s).freeDraws = s.freeDraws ∧ (arbiterU s).pending = s.pending := by
  unfold arbiterU
  try dsimp only
  repeat' split
  all_goals simp

/-- R149. -/
@[simp] theorem transmitStarts_keeps (p : Port) (s : State) :
    (transmitStarts p s).mode = s.mode ∧ (transmitStarts p s).ownAddress = s.ownAddress ∧
    (transmitStarts p s).tables = s.tables ∧ (transmitStarts p s).tally = s.tally ∧
    (transmitStarts p s).lay = s.lay ∧ (transmitStarts p s).mesh = s.mesh ∧ (transmitStarts p s).coil = s.coil ∧
    (transmitStarts p s).faults = s.faults ∧ (transmitStarts p s).store.hold = s.store.hold ∧
    (transmitStarts p s).store.arriving = s.store.arriving ∧
    (transmitStarts p s).store.reserved = s.store.reserved ∧ (transmitStarts p s).resetIn = s.resetIn ∧
    (transmitStarts p s).freeDraws = s.freeDraws ∧ (transmitStarts p s).pending = s.pending := by
  unfold transmitStarts
  try dsimp only
  repeat' split
  all_goals simp

/-- R149: a frame moved into a holding stage leaves every HOLD-IN level. -/
theorem startFrame_holdIn (p q : Port) (f : Frame) (o : Origin) (s : State) :
    ((startFrame p f o s).port q).holdIn = (s.port q).holdIn := by
  cases p <;> cases q <;> rfl

/-- R166, R189: a start from FQD leaves every HOLD-IN level. -/
theorem startFqd_holdIn (q : Port) (l : List FwdFrame) (s : State) :
    ((startFqd l s).port q).holdIn = (s.port q).holdIn := by
  induction l generalizing s with
  | nil => cases q <;> rfl
  | cons e rest ih =>
    unfold startFqd
    split
    · rw [ih]; cases q <;> rfl
    · dsimp only
      rw [startFrame_holdIn]
      cases q <;> simp [State.port]

/-- R149, R151: a transmit start leaves every HOLD-IN level. -/
theorem transmitStarts_holdIn (p q : Port) (s : State) :
    ((transmitStarts p s).port q).holdIn = (s.port q).holdIn := by
  unfold transmitStarts
  split
  · rfl
  · cases p <;> dsimp only
    · unfold arbiterU
      split
      · rw [startFrame_holdIn]; cases q <;> rfl
      · split
        · rw [startFrame_holdIn]; cases q <;> rfl
        · rfl
    · unfold arbiterD
      split
      · unfold startLatch; rw [startFrame_holdIn]; cases q <;> rfl
      · split
        · rw [startFrame_holdIn]; cases q <;> rfl
        · rw [startFqd_holdIn]

/-- R168, R169, step 1. -/
@[simp] theorem releaseDeparted_keeps (p : Port) (h : Holding) (s : State) :
    (releaseDeparted p h s).mode = s.mode ∧ (releaseDeparted p h s).ownAddress = s.ownAddress ∧
    (releaseDeparted p h s).tables = s.tables ∧ (releaseDeparted p h s).tally = s.tally ∧
    (releaseDeparted p h s).lay = s.lay ∧ (releaseDeparted p h s).mesh = s.mesh ∧
    (releaseDeparted p h s).coil = s.coil ∧ (releaseDeparted p h s).faults = s.faults ∧
    (releaseDeparted p h s).store.fqd = s.store.fqd ∧ (releaseDeparted p h s).store.fqu = s.store.fqu ∧
    (releaseDeparted p h s).store.iqd = s.store.iqd ∧ (releaseDeparted p h s).store.iqu = s.store.iqu ∧
    (releaseDeparted p h s).store.latchPending = s.store.latchPending ∧
    (releaseDeparted p h s).store.hold = s.store.hold ∧
    (releaseDeparted p h s).store.arriving = s.store.arriving ∧
    (releaseDeparted p h s).store.reserved = s.store.reserved ∧
    (releaseDeparted p h s).classifier = s.classifier ∧ (releaseDeparted p h s).resetIn = s.resetIn ∧
    (releaseDeparted p h s).freeDraws = s.freeDraws ∧ (releaseDeparted p h s).pending = s.pending := by
  unfold releaseDeparted
  try dsimp only
  repeat' split
  all_goals simp

/-- R33. -/
@[simp] theorem cutreqDeparted_keeps (f : Frame) (s : State) :
    (cutreqDeparted f s).mode = s.mode ∧ (cutreqDeparted f s).ownAddress = s.ownAddress ∧
    (cutreqDeparted f s).tables = s.tables ∧ (cutreqDeparted f s).tally.haulTotal = s.tally.haulTotal ∧
    (cutreqDeparted f s).tally.packedTotal = s.tally.packedTotal ∧
    (cutreqDeparted f s).tally.coil = s.tally.coil ∧ (cutreqDeparted f s).tally.mark = s.tally.mark ∧
    (cutreqDeparted f s).tally.window = s.tally.window ∧
    (cutreqDeparted f s).tally.windowLength = s.tally.windowLength ∧
    (cutreqDeparted f s).tally.haulwatch = s.tally.haulwatch ∧
    (cutreqDeparted f s).tally.loaded = s.tally.loaded ∧
    (cutreqDeparted f s).tally.haulTaken = s.tally.haulTaken ∧
    (cutreqDeparted f s).tally.shortHaul = s.tally.shortHaul ∧
    (cutreqDeparted f s).tally.clippedHaul = s.tally.clippedHaul ∧ (cutreqDeparted f s).lay = s.lay ∧
    (cutreqDeparted f s).mesh = s.mesh ∧ (cutreqDeparted f s).coil = s.coil ∧
    (cutreqDeparted f s).faults = s.faults ∧ (cutreqDeparted f s).portU = s.portU ∧
    (cutreqDeparted f s).portD = s.portD ∧ (cutreqDeparted f s).store = s.store ∧
    (cutreqDeparted f s).holdOut = s.holdOut ∧ (cutreqDeparted f s).classifier = s.classifier ∧
    (cutreqDeparted f s).resetIn = s.resetIn ∧ (cutreqDeparted f s).freeDraws = s.freeDraws ∧
    (cutreqDeparted f s).pending = s.pending := by
  unfold cutreqDeparted
  try dsimp only
  repeat' split
  all_goals simp

/-- R168 steps 2 and 3. -/
@[simp] theorem departedD_keeps (h : Holding) (s : State) :
    (departedD h s).mode = s.mode ∧ (departedD h s).ownAddress = s.ownAddress ∧
    (departedD h s).tables = s.tables ∧ (departedD h s).tally.haulTotal = s.tally.haulTotal ∧
    (departedD h s).tally.packedTotal = s.tally.packedTotal ∧ (departedD h s).tally.coil = s.tally.coil ∧
    (departedD h s).tally.mark = s.tally.mark ∧ (departedD h s).tally.window = s.tally.window ∧
    (departedD h s).tally.windowLength = s.tally.windowLength ∧
    (departedD h s).tally.haulwatch = s.tally.haulwatch ∧ (departedD h s).tally.loaded = s.tally.loaded ∧
    (departedD h s).tally.haulTaken = s.tally.haulTaken ∧ (departedD h s).tally.shortHaul = s.tally.shortHaul ∧
    (departedD h s).tally.clippedHaul = s.tally.clippedHaul ∧ (departedD h s).lay = s.lay ∧
    (departedD h s).mesh = s.mesh ∧ (departedD h s).coil.openCoil.number = s.coil.openCoil.number ∧
    (departedD h s).coil.openCoil.productId = s.coil.openCoil.productId ∧
    (departedD h s).coil.openCoil.net = s.coil.openCoil.net ∧
    (departedD h s).coil.openCoil.length = s.coil.openCoil.length ∧
    (departedD h s).coil.openCoil.start = s.coil.openCoil.start ∧
    (departedD h s).coil.openCoil.rows = s.coil.openCoil.rows ∧
    (departedD h s).coil.openCoil.worstDeviation = s.coil.openCoil.worstDeviation ∧
    (departedD h s).coil.openCoil.driftWindows = s.coil.openCoil.driftWindows ∧
    (departedD h s).coil.openCoil.defects = s.coil.openCoil.defects ∧
    (departedD h s).coil.openCoil.overflow = s.coil.openCoil.overflow ∧
    (departedD h s).coil.openCoil.overflowPoints = s.coil.openCoil.overflowPoints ∧
    (departedD h s).coil.openCoil.points = s.coil.openCoil.points ∧
    (departedD h s).coil.openCoil.grade = s.coil.openCoil.grade ∧
    (departedD h s).coil.openCoil.cutLag = s.coil.openCoil.cutLag ∧
    (departedD h s).coil.openCoil.overdue = s.coil.openCoil.overdue ∧
    (departedD h s).coil.openCoil.overlengthNoted = s.coil.openCoil.overlengthNoted ∧
    (departedD h s).coil.counter = s.coil.counter ∧ (departedD h s).coil.current = s.coil.current ∧
    (departedD h s).coil.next = s.coil.next ∧ (departedD h s).coil.rejectedFrames = s.coil.rejectedFrames ∧
    (departedD h s).coil.marksMissed = s.coil.marksMissed ∧
    (departedD h s).coil.takeOverruns = s.coil.takeOverruns ∧
    (departedD h s).coil.nacksNotSent = s.coil.nacksNotSent ∧
    (departedD h s).coil.refusedChangeovers = s.coil.refusedChangeovers ∧ (departedD h s).faults = s.faults ∧
    (departedD h s).portU = s.portU ∧ (departedD h s).portD = s.portD ∧
    (departedD h s).store.fqd = s.store.fqd ∧ (departedD h s).store.fqu = s.store.fqu ∧
    (departedD h s).store.iqu = s.store.iqu ∧ (departedD h s).store.latchPending = s.store.latchPending ∧
    (departedD h s).store.latchInFlight = s.store.latchInFlight ∧ (departedD h s).store.hold = s.store.hold ∧
    (departedD h s).store.arriving = s.store.arriving ∧ (departedD h s).store.reserved = s.store.reserved ∧
    (departedD h s).holdOut = s.holdOut ∧ (departedD h s).classifier = s.classifier ∧
    (departedD h s).resetIn = s.resetIn ∧ (departedD h s).freeDraws = s.freeDraws ∧
    (departedD h s).pending = s.pending := by
  unfold departedD
  try dsimp only
  repeat' split
  all_goals simp

/-- R169 steps 2 and 3. -/
@[simp] theorem reportMark_keeps (m : InjMark) (s : State) :
    (reportMark m s).mode = s.mode ∧ (reportMark m s).tables = s.tables ∧ (reportMark m s).tally = s.tally ∧
    (reportMark m s).lay = s.lay ∧ (reportMark m s).mesh = s.mesh ∧ (reportMark m s).coil = s.coil ∧
    (reportMark m s).faults.counters = s.faults.counters ∧
    (reportMark m s).faults.overflow = s.faults.overflow ∧
    (reportMark m s).faults.nextIdentity = s.faults.nextIdentity ∧ (reportMark m s).portU = s.portU ∧
    (reportMark m s).portD = s.portD ∧ (reportMark m s).store = s.store ∧ (reportMark m s).holdOut = s.holdOut ∧
    (reportMark m s).classifier = s.classifier ∧ (reportMark m s).resetIn = s.resetIn ∧
    (reportMark m s).freeDraws = s.freeDraws ∧ (reportMark m s).pending = s.pending := by
  unfold reportMark
  try dsimp only
  repeat' split
  all_goals simp

/-- R169. -/
@[simp] theorem departedInjU_keeps (m : InjMark) (s : State) :
    (departedInjU m s).tally.haulTotal = s.tally.haulTotal ∧
    (departedInjU m s).tally.packedTotal = s.tally.packedTotal ∧
    (departedInjU m s).tally.cutwait = s.tally.cutwait ∧
    (departedInjU m s).tally.haulTaken = s.tally.haulTaken ∧
    (departedInjU m s).tally.shortHaul = s.tally.shortHaul ∧
    (departedInjU m s).tally.clippedHaul = s.tally.clippedHaul ∧
    (departedInjU m s).lay.rejectedTurns = s.lay.rejectedTurns ∧
    (departedInjU m s).lay.ignoredTurns = s.lay.ignoredTurns ∧
    (departedInjU m s).coil.openCoil.number = s.coil.openCoil.number ∧
    (departedInjU m s).coil.openCoil.length = s.coil.openCoil.length ∧
    (departedInjU m s).coil.openCoil.start = s.coil.openCoil.start ∧
    (departedInjU m s).coil.openCoil.rows = s.coil.openCoil.rows ∧
    (departedInjU m s).coil.openCoil.worstDeviation = s.coil.openCoil.worstDeviation ∧
    (departedInjU m s).coil.openCoil.driftWindows = s.coil.openCoil.driftWindows ∧
    (departedInjU m s).coil.openCoil.grade = s.coil.openCoil.grade ∧
    (departedInjU m s).coil.openCoil.overdue = s.coil.openCoil.overdue ∧
    (departedInjU m s).coil.openCoil.overlengthNoted = s.coil.openCoil.overlengthNoted ∧
    (departedInjU m s).coil.queue = s.coil.queue ∧ (departedInjU m s).coil.counter = s.coil.counter ∧
    (departedInjU m s).coil.pendingTake = s.coil.pendingTake ∧
    (departedInjU m s).coil.rejectedFrames = s.coil.rejectedFrames ∧
    (departedInjU m s).coil.marksMissed = s.coil.marksMissed ∧
    (departedInjU m s).coil.takeOverruns = s.coil.takeOverruns ∧
    (departedInjU m s).coil.nacksNotSent = s.coil.nacksNotSent ∧
    (departedInjU m s).coil.refusedChangeovers = s.coil.refusedChangeovers ∧
    (departedInjU m s).portU.receiver = s.portU.receiver ∧
    (departedInjU m s).portU.transmitter = s.portU.transmitter ∧
    (departedInjU m s).portU.holdIn = s.portU.holdIn ∧ (departedInjU m s).portD.receiver = s.portD.receiver ∧
    (departedInjU m s).portD.transmitter = s.portD.transmitter ∧
    (departedInjU m s).portD.holdIn = s.portD.holdIn ∧ (departedInjU m s).store.fqd = s.store.fqd ∧
    (departedInjU m s).store.fqu = s.store.fqu ∧
    (departedInjU m s).store.latchInFlight = s.store.latchInFlight ∧
    (departedInjU m s).store.arriving = s.store.arriving ∧ (departedInjU m s).classifier = s.classifier ∧
    (departedInjU m s).resetIn = s.resetIn ∧ (departedInjU m s).pending = s.pending := by
  simp [departedInjU]

/-- R150 step 3. -/
@[simp] theorem emptyStage_keeps (p : Port) (s : State) :
    (emptyStage p s).mode = s.mode ∧ (emptyStage p s).ownAddress = s.ownAddress ∧
    (emptyStage p s).tables = s.tables ∧ (emptyStage p s).tally = s.tally ∧ (emptyStage p s).lay = s.lay ∧
    (emptyStage p s).mesh = s.mesh ∧ (emptyStage p s).coil = s.coil ∧ (emptyStage p s).faults = s.faults ∧
    (emptyStage p s).store = s.store ∧ (emptyStage p s).holdOut = s.holdOut ∧
    (emptyStage p s).classifier = s.classifier ∧ (emptyStage p s).resetIn = s.resetIn ∧
    (emptyStage p s).freeDraws = s.freeDraws ∧ (emptyStage p s).pending = s.pending := by
  simp [emptyStage]

/-- R151. -/
@[simp] theorem setHoldIn_keeps (p : Port) (level : Bool) (s : State) :
    (setHoldIn p level s).mode = s.mode ∧ (setHoldIn p level s).ownAddress = s.ownAddress ∧
    (setHoldIn p level s).tables = s.tables ∧ (setHoldIn p level s).tally = s.tally ∧
    (setHoldIn p level s).lay = s.lay ∧ (setHoldIn p level s).mesh = s.mesh ∧
    (setHoldIn p level s).coil = s.coil ∧ (setHoldIn p level s).faults = s.faults ∧
    (setHoldIn p level s).store = s.store ∧ (setHoldIn p level s).holdOut = s.holdOut ∧
    (setHoldIn p level s).classifier = s.classifier ∧ (setHoldIn p level s).resetIn = s.resetIn ∧
    (setHoldIn p level s).freeDraws = s.freeDraws ∧ (setHoldIn p level s).pending = s.pending := by
  simp [setHoldIn]

/-- R150, R169: the departure of an IQU frame but the reply of a RESET request, in its order: counted and released,
its mark reported, the held request taken, the ALARMs examined, the transmitter idle. -/
theorem departure_injected (f : Frame) (m : InjMark) (parity : Bool) (s : State) (hm : m ≠ .resetReply)
    (ht : s.portU.transmitter = some { frame := f, origin := .injected m, parity := parity, released := false }) :
    departure .u s = emptyStage .u (sendAlarms (takeHeld (reportMark m (s.setPort .u { s.portU with
      transmitter := some { frame := f, origin := .injected m, parity := parity, released := true }
      counters.framesSent := bump s.portU.counters.framesSent })))) := by
  have hp : (s.port .u).transmitter = some { frame := f, origin := .injected m, parity := parity, released := false } := ht
  unfold departure
  rw [hp]
  cases m <;> first | rfl | exact absurd rfl hm

end Sys2Proof.Machine
end

