-- ==== Sys2Proof/Laws/Commands.lean ====
section
/-! SUPPORT. What a departure and a command can change, and the shape every command's meaning has. -/

namespace Sys2Proof.Machine

/-- A command has its effect only while the RESET input is released (R203). -/
theorem whenWorking_of_released (s : State) (f : State → State) (h : s.resetIn = false) : whenWorking s f = f s := by
  simp [whenWorking, h]

/-- R203: while the RESET input is asserted the state is held. -/
theorem whenWorking_of_asserted (s : State) (f : State → State) (h : s.resetIn = true) : whenWorking s f = s := by
  simp [whenWorking, h]

/-- A property that holds of a state and of an operation's result holds of the operation at work. -/
theorem whenWorking_ind {P : State → Prop} (s : State) (f : State → State) (h : P s) (hf : s.resetIn = false → P (f s)) :
    P (whenWorking s f) := by
  unfold whenWorking
  split
  · exact h
  · rename_i hr
    exact hf (by simpa using hr)

/-- An arrival's slot: with none free a pool drop, else the body within the arrival and its end (R144, R158). -/
theorem withSlot_ind {P : State → Prop} (p : Port) (body : State → State) (s : State)
    (drop : P (s.countPort p (fun c => { c with poolDrops := bump c.poolDrops })))
    (run : s.freeForwarding ≠ 0 → P (endArrival (body { s with store.arriving := true }))) : P (withSlot p body s) := by
  unfold withSlot
  split
  · exact drop
  · rename_i h
    exact run h

/-- A COIL_UNDERFLOW, a MARK_UNDERFLOW or a WINDOW_END does nothing where its counter does not underflow. -/
theorem ite_ind {P : State → Prop} (b : Bool) (f : State → State) (s : State) (h : P s) (hf : b = true → P (f s)) :
    P (if b then f s else s) := by
  split
  · rename_i hb
    exact hf hb
  · exact h

end Sys2Proof.Machine
end

