-- ==== Sys2Proof/Laws/CoilOrder.lean ====
section
/-! SUPPORT. The coil queue and the open coil (R84, R85, R100) through every operation. -/

namespace Sys2Proof.Machine

/-- What the order of the coils reads of a state. -/
def coilView (s : State) := (s.coil.queue, s.coil.openCoil.state, s.coil.openCoil.number, s.coil.counter, s.tally.cutwait.running)

/-- R85: the running numbers read the numbers alone. -/
theorem numbersRun_congr (l m : List CoilRecord) (h : l.map CoilRecord.number = m.map CoilRecord.number) (hl :
    numbersRun l) : numbersRun m := by
  induction l generalizing m with
  | nil => cases m <;> simp_all [numbersRun]
  | cons a rest ih =>
    cases m with
    | nil => simp at h
    | cons b rest' =>
      simp at h
      cases rest with
      | nil => cases rest' <;> simp_all [numbersRun]
      | cons a2 r2 =>
        cases rest' with
        | nil => simp at h
        | cons b2 r2' =>
          simp [numbersRun] at hl ⊢
          have h2 := h.2
          simp at h2
          exact ⟨by rw [← h.1, ← h2.1]; exact hl.1, ih (b2 :: r2') (by simpa using h2) hl.2⟩

/-- R85: one coil number more runs on. -/
theorem numbersRun_snoc (l : List CoilRecord) (a b : CoilRecord) (h : numbersRun (l ++ [a])) (hb :
    b.number = nextNumber a.number) :
    numbersRun (l ++ [a, b]) := by
  induction l with
  | nil => exact ⟨hb, trivial⟩
  | cons x rest ih =>
    cases rest with
    | nil => exact ⟨h.1, ih h.2⟩
    | cons y r => exact ⟨h.1, ih h.2⟩

/-- R85: the numbers run on without the oldest. -/
theorem numbersRun_tail (a : CoilRecord) (l : List CoilRecord) (h : numbersRun (a :: l)) : numbersRun l := by
  cases l with
  | nil => trivial
  | cons b r => exact h.2

/-- What the order of the coils reads of a state beside the open coil's state and CUTWAIT. -/
def queueView (s : State) := (s.coil.queue, s.coil.openCoil.number, s.coil.counter)

/-- R84, R85, R100: the order of the coils stands where the open coil's state alone moves, to one that fits the
queue and CUTWAIT. -/
theorem State.CoilsOrdered.moved {s t : State} (hs : s.CoilsOrdered) (same : queueView t = queueView s)
    (opened : t.coil.openCoil.state.isOpen = true)
    (room : t.coil.openCoil.state.cutRequested = true → s.coil.queue.length < 16)
    (wait : t.tally.cutwait.running = true → t.coil.openCoil.state = .cutting) : t.CoilsOrdered := by
  simp only [queueView, Prod.mk.injEq] at same
  obtain ⟨queue, number, counter⟩ := same
  unfold State.CoilsOrdered
  rw [queue, counter, number]
  refine ⟨hs.1, opened, room, hs.2.2.2.1, hs.2.2.2.2.1, ?_, hs.2.2.2.2.2.2.1, hs.2.2.2.2.2.2.2.1,
    hs.2.2.2.2.2.2.2.2.1, wait⟩
  refine numbersRun_congr _ _ ?_ hs.2.2.2.2.2.1
  simp [number]

/-- R84: the open coil is in a state of an open coil. -/
theorem State.CoilsOrdered.opened {s : State} (h : s.CoilsOrdered) : s.coil.openCoil.state.isOpen = true := h.2.1

/-- R84: a coil whose cut is requested has room in the queue. -/
theorem State.CoilsOrdered.room {s : State} (h : s.CoilsOrdered) :
    s.coil.openCoil.state.cutRequested = true → s.coil.queue.length < 16 := h.2.2.1

/-- R100: CUTWAIT runs only while the open coil is CUTTING. -/
theorem State.CoilsOrdered.wait {s : State} (h : s.CoilsOrdered) :
    s.tally.cutwait.running = true → s.coil.openCoil.state = .cutting := h.2.2.2.2.2.2.2.2.2

/-- R84, R85, R100: states that agree on what is read keep the order of the coils. -/
theorem State.CoilsOrdered.of_view {s t : State} (h : coilView t = coilView s) (hs : s.CoilsOrdered) :
    t.CoilsOrdered := by
  simp only [coilView, Prod.mk.injEq] at h
  exact hs.moved (by simp [queueView, h]) (by rw [h.2.1]; exact hs.opened) (by rw [h.2.1]; exact hs.room)
    (by rw [h.2.1, h.2.2.2.2]; exact hs.wait)

/-- R102: a LABEL changes no coil number. -/
@[simp] theorem labelOldest_numbers (q : List CoilRecord) :
    (labelOldest q).map CoilRecord.number = q.map CoilRecord.number := by
  induction q with
  | nil => rfl
  | cons r rest ih => unfold labelOldest; split <;> simp [ih]

/-- R102: a LABEL removes no record. -/
@[simp] theorem labelOldest_length (q : List CoilRecord) : (labelOldest q).length = q.length := by
  induction q with
  | nil => rfl
  | cons r rest ih => unfold labelOldest; split <;> simp [ih]

/-- R102: a labelled queue holds no open record. -/
theorem labelOldest_notOpen (q : List CoilRecord) (h : ∀ r ∈ q, r.state.isOpen = false) :
    ∀ r ∈ labelOldest q, r.state.isOpen = false := by
  induction q with
  | nil => simp [labelOldest]
  | cons a rest ih =>
    unfold labelOldest
    split
    · intro r hr; rcases List.mem_cons.1 hr with rfl | hr
      · rfl
      · exact h r (List.mem_cons_of_mem _ hr)
    · intro r hr; rcases List.mem_cons.1 hr with rfl | hr
      · exact h _ (List.mem_cons_self)
      · exact ih (fun r hr => h r (List.mem_cons_of_mem _ hr)) r hr

/-- R85, R102: the oldest CLOSED record becoming LABELLED keeps the LABELLED ones first. -/
theorem labelOldest_first (q : List CoilRecord) (h : ∀ r ∈ q, r.state.isOpen = false) (hq : labelledFirst q) :
    labelledFirst (labelOldest q) := by
  induction q with
  | nil => simp [labelOldest, labelledFirst]
  | cons a rest ih =>
    have hr := List.pairwise_cons.1 hq
    unfold labelOldest
    split
    · exact List.pairwise_cons.2 ⟨fun b _ _ => rfl, hr.2⟩
    · rename_i hn
      refine List.pairwise_cons.2 ⟨fun b _ _ => ?_, ih (fun r hr => h r (List.mem_cons_of_mem _ hr)) hr.2⟩
      have := h a List.mem_cons_self
      cases hs : a.state <;> simp_all [CoilState.isOpen]

/-- R84, R85, R100: `sendLabel` keeps the order of the coils. -/
theorem sendLabel_coils (s : State) (h : s.CoilsOrdered) : (sendLabel s).CoilsOrdered := by
  obtain ⟨a, b, c, d, e, f, g⟩ := h
  refine ⟨by simpa [sendLabel] using a, by simpa [sendLabel] using b, by simpa [sendLabel] using c, ?_, ?_, ?_, by simpa using g⟩
  · simpa [sendLabel] using labelOldest_notOpen _ d
  · simpa [sendLabel] using labelOldest_first _ d e
  · refine numbersRun_congr _ _ ?_ f; simp [sendLabel]

/-- R84, R85, R100: `servePending` keeps the order of the coils. -/
theorem servePending_coils (s : State) (h : s.CoilsOrdered) : (servePending s).CoilsOrdered := by
  unfold servePending; split
  · exact sendLabel_coils _ h
  · exact h

/-- R84, R85, R100: `takeReceived` keeps the order of the coils. -/
theorem takeReceived_coils (s : State) (h : s.CoilsOrdered) : (takeReceived s).CoilsOrdered := by
  unfold takeReceived; repeat' split
  · exact h
  · exact sendLabel_coils _ h
  · exact h

/-- leaving OPEN/CUT_WAIT_ROOM with room -/
theorem cutWithRoom_coils (s : State) (h : s.CoilsOrdered) (hq : s.coil.queue.length < 16) (hc :
    s.coil.openCoil.state ≠ .cutting) : (cutWithRoom s).CoilsOrdered := by
  unfold cutWithRoom; split
  · exact h.moved (by simp [queueView, sendCutreq]) rfl (fun _ => hq) (fun _ => rfl)
  · exact h.moved (by simp [queueView]) rfl (fun _ => hq) (fun hr => absurd (h.wait (by simpa using hr)) hc)

/-- R84, R85, R100: `raise` keeps the order of the coils. -/
theorem raise_coils (k a b c) (s : State) (h : s.CoilsOrdered) :
    (raise k a b c s).CoilsOrdered := .of_view (by simp [coilView]) h

/-- R84, R85, R100: `cutRequest` keeps the order of the coils. -/
theorem cutRequest_coils (s : State) (h : s.CoilsOrdered) (hc : s.coil.openCoil.state ≠ .cutting) :
    (cutRequest s).CoilsOrdered := by
  unfold cutRequest; split
  · apply raise_coils
    exact h.moved (by simp [queueView]) rfl (fun h => by cases h) (fun hr => absurd (h.wait (by simpa using hr)) hc)
  · exact cutWithRoom_coils _ h (by omega) hc

/-- R84, R85, R100: `coilUnderflowed` keeps the order of the coils. -/
theorem coilUnderflowed_coils (l) (s : State) (h : s.CoilsOrdered) : (coilUnderflowed l s).CoilsOrdered := by
  unfold coilUnderflowed; split
  · rename_i hs; exact cutRequest_coils _ (.of_view (s := s) (by simp [coilView]) h) (by simp [hs])
  · exact h

/-- R84, R85, R100: `handImmediate` keeps the order of the coils. -/
theorem handImmediate_coils (s : State) (h : s.CoilsOrdered) : (handImmediate s).CoilsOrdered := by
  unfold handImmediate; split
  · exact coilUnderflowed_coils _ _ h
  · exact h

/-- R84, R85, R100: `iqdDeparted` keeps the order of the coils. -/
theorem iqdDeparted_coils (s : State) (h : s.CoilsOrdered) : (iqdDeparted s).CoilsOrdered := by
  unfold iqdDeparted; apply servePending_coils; split
  · rename_i hh
    simp at hh
    exact h.moved (by simp [queueView, sendCutreq]) rfl
      (fun _ => h.room (by simp [hh.1, CoilState.cutRequested])) (fun _ => rfl)
  · exact h

/-- R85: the oldest LABELLED record is the oldest record. -/
theorem oldestLabelled_head (q : List CoilRecord) (r : CoilRecord) (h : ∀ r ∈ q, r.state.isOpen = false) (hq :
    labelledFirst q)
    (ho : oldestLabelled q = some r) : ∃ rest, q = r :: rest := by
  cases q with
  | nil => simp [oldestLabelled] at ho
  | cons a rest =>
    have hm := List.mem_of_find?_eq_some ho
    have hl : r.state = .labelled := by simpa using List.find?_some ho
    have ha : a.state = .labelled := by
      rcases List.mem_cons.1 hm with rfl | hm
      · exact hl
      · exact (List.pairwise_cons.1 hq).1 r hm hl
    simp [oldestLabelled, ha] at ho
    exact ⟨rest, by rw [ho]⟩

/-- R84, R85, R100: `packedNamed` keeps the order of the coils. -/
theorem packedNamed_coils (src n) (s : State) (h : s.CoilsOrdered) : (packedNamed src n s).CoilsOrdered := by
  unfold packedNamed; split
  · exact .of_view (by simp [coilView]) h
  · rename_i r hr
    split
    · rename_i hn
      obtain ⟨a, b, c, d, e, f, g⟩ := h
      simp only [Option.map_eq_some_iff] at hn
      obtain ⟨r', hr', hn'⟩ := hn
      obtain ⟨rest, hq⟩ := oldestLabelled_head _ _ d e hr'
      have hrr : r = r' := by
        rw [hq] at hr
        simp [hn'] at hr
        exact hr.symm
      subst hrr
      have hrem : removeCoil r.number s.coil.queue = rest := by rw [hq]; simp [removeCoil]
      unfold packOldest
      rw [hrem]
      rw [hq] at a c d e f
      have H : ({ s with coil.queue := rest, tally.packedTotal := s.tally.packedTotal + r.length } : State).CoilsOrdered := by
        refine ⟨by simp at a ⊢; omega, b, fun h => ?_, fun x hx => d x (List.mem_cons_of_mem _ hx), (List.pairwise_cons.1 e).2, numbersRun_tail _ _ f, g⟩
        have := c h
        simp at this ⊢; omega
      unfold roomMade; split
      · rename_i hst
        have hst' : s.coil.openCoil.state = .cutWaitRoom := hst
        refine .of_view (s := cutWithRoom _) (by simp [coilView]) (cutWithRoom_coils _ H ?_ ?_)
        · simp at a ⊢; omega
        · simp [hst']
      · exact H
    · exact .of_view (by simp [coilView]) h

/-- R84, R85, R100: `packedReceived` keeps the order of the coils. -/
theorem packedReceived_coils (a b) (s : State) (h : s.CoilsOrdered) : (packedReceived a b s).CoilsOrdered := by
  unfold packedReceived; split
  · exact h
  · exact packedNamed_coils _ _ _ h

/-- R84, R85, R100: `giveCoil` keeps the order of the coils. -/
theorem giveCoil_coils (n) (s : State) (h : s.CoilsOrdered) : (giveCoil n s).CoilsOrdered := by
  unfold giveCoil; dsimp only; repeat' split
  · exact coilUnderflowed_coils _ _ h
  · exact h
  · exact h

/-- R84, R85, R100: `giveMark` keeps the order of the coils. -/
theorem giveMark_coils (n) (s : State) (h : s.CoilsOrdered) :
    (giveMark n s).CoilsOrdered := .of_view (s := s) (by simp [coilView]) h

/-- R84, R85, R100: `giveWindow` keeps the order of the coils. -/
theorem giveWindow_coils (n) (s : State) (h : s.CoilsOrdered) :
    (giveWindow n s).CoilsOrdered := .of_view (s := s) (by simp [coilView]) h

/-- R84, R85, R100: `cutwaitExpired` keeps the order of the coils. -/
theorem cutwaitExpired_coils (s : State) (h : s.CoilsOrdered) (hr : s.tally.cutwait.running = false) :
    (cutwaitExpired s).CoilsOrdered := by
  unfold cutwaitExpired; apply raise_coils
  refine State.CoilsOrdered.of_view (s := { setOpenState .opened s with coil.openCoil.overdue := true }) (by simp [coilView]) ?_
  exact h.moved (by simp [queueView]) rfl (fun h => by cases h) (fun h => by simp [hr] at h)

/-- R84, R85, R100: `haulForward` keeps the order of the coils. -/
theorem haulForward_coils (n) (s : State) (h : s.CoilsOrdered) : (haulForward n s).CoilsOrdered := by
  unfold haulForward giveLength; dsimp only
  split
  · exact .of_view (s := s) (by simp [coilView]) h
  · apply giveWindow_coils; apply giveMark_coils; apply giveCoil_coils
    exact .of_view (s := s) (by simp [coilView]) h

/-- R84, R85, R100: `haulReceived` keeps the order of the coils. -/
theorem haulReceived_coils (p) (s : State) (h : s.CoilsOrdered) : (haulReceived p s).CoilsOrdered := by
  unfold haulReceived applyIncrement; dsimp only
  repeat' split
  all_goals first
    | (refine State.CoilsOrdered.of_view (s := s) ?_ h; simp [coilView]; done)
    | (with_reducible apply haulForward_coils; refine State.CoilsOrdered.of_view (s := s) ?_ h; simp [coilView])

/-- R84, R85, R100: `openNewCoil` keeps the order of the coils. -/
theorem openNewCoil_coils (L k) (s : State) (h1 : s.coil.queue.length ≤ 16) (d :
    ∀ r ∈ s.coil.queue, r.state.isOpen = false)
    (e : labelledFirst s.coil.queue) (f : ∀ b, b.number = nextNumber s.coil.counter → numbersRun (s.coil.queue ++ [b]))
    (hw : s.tally.cutwait.running = false) (hc : s.coil.counter ≤ 65535) : (openNewCoil L k s).CoilsOrdered := by
  unfold openNewCoil; apply handImmediate_coils
  refine State.CoilsOrdered.of_view (s := makeOpenCoil L s) (by simp [coilView]) ?_
  refine ⟨h1, rfl, (fun h => by cases h), d, e, f _ rfl, rfl, ?_, ?_, fun h => ?_⟩
  · simp [makeOpenCoil, nextNumber]; split <;> omega
  · simp [makeOpenCoil, nextNumber]; split <;> omega
  · simp [hw] at h

/-- R84, R85, R100: `closeAndOpen` keeps the order of the coils. -/
theorem closeAndOpen_coils (a) (s : State) (h : s.CoilsOrdered) (hcut : s.coil.openCoil.state = .cutting) :
    (closeAndOpen a s).CoilsOrdered := by
  have key : ∀ (s' : State) L k, s'.coil.queue.length < 16 → (∀ r ∈ s'.coil.queue, r.state.isOpen = false) → labelledFirst s'.coil.queue →
      numbersRun (s'.coil.queue ++ [s'.coil.openCoil]) → s'.coil.counter = s'.coil.openCoil.number → s'.coil.counter ≤ 65535 →
      ∀ cut, (openNewCoil L k (closeOpenCoil cut s')).CoilsOrdered := by
    intro s' L k h1 h2 h3 h4 h5 h6 cut
    let s1 : State := { stopCutwait s' with coil.queue := s'.coil.queue ++ [s'.coil.openCoil.close s'.product cut] }
    have e1 : closeOpenCoil cut s' = servePending s1 := rfl
    have hd : ∀ r ∈ s1.coil.queue, r.state.isOpen = false := by
      intro r hr
      rcases List.mem_append.1 hr with hr | hr
      · exact h2 r hr
      · simp at hr; subst hr; rfl
    have he : labelledFirst s1.coil.queue := by
      refine List.pairwise_append.2 ⟨h3, by simp, fun x hx y hy hl => ?_⟩
      simp at hy; subst hy; cases hl
    rw [e1]
    refine openNewCoil_coils L k (servePending s1) ?_ ?_ ?_ ?_ ?_ ?_
    · unfold servePending; split <;> simp [sendLabel, s1] <;> omega
    · unfold servePending; split
      · simpa [sendLabel] using labelOldest_notOpen _ hd
      · exact hd
    · unfold servePending; split
      · simpa [sendLabel] using labelOldest_first _ hd he
      · exact he
    · intro b hb
      have hb' : b.number = nextNumber (s'.coil.openCoil.close s'.product cut).number := by simpa [s1, h5, CoilRecord.close] using hb
      have := numbersRun_snoc s'.coil.queue (s'.coil.openCoil.close s'.product cut) b (numbersRun_congr _ _ (by simp [CoilRecord.close]) h4) hb'
      refine numbersRun_congr _ _ ?_ this
      unfold servePending; split <;> simp [sendLabel, s1]
    · simp [s1, OneShot.stop, stopCutwait]
    · simpa [s1] using h6
  obtain ⟨a', b, c, d, e, f, g1, g2, g3, g4⟩ := h
  unfold closeAndOpen; dsimp only; split
  · exact raise_coils _ _ _ _ _ (key _ _ _ (c (by simp [hcut, CoilState.cutRequested])) d e f g1 g3 _)
  · exact key _ _ _ (c (by simp [hcut, CoilState.cutRequested])) d e f g1 g3 _

/-- R84, R85, R100: `cutdoneReceived` keeps the order of the coils. -/
theorem cutdoneReceived_coils (p) (s : State) (h : s.CoilsOrdered) : (cutdoneReceived p s).CoilsOrdered := by
  unfold cutdoneReceived; repeat' split
  · exact h
  · rename_i _ ha; simp [State.answers] at ha; exact closeAndOpen_coils _ _ h ha.2
  · exact raise_coils _ _ _ _ _ h

/-- R84, R85, R100: `tap` keeps the order of the coils. -/
theorem tap_coils (r f) (s : State) (h : s.CoilsOrdered) : (tap r f s).CoilsOrdered := by
  unfold tap; split
  · exact .of_view (by simp [coilView]) h
  · exact haulReceived_coils _ _ h
  · exact .of_view (by simp [coilView]) h
  · exact h

/-- R84, R85, R100: `carryOut` keeps the order of the coils. -/
theorem carryOut_coils (r) (s : State) (h : s.CoilsOrdered) : (carryOut r s).1.CoilsOrdered := by
  cases r with
  | setMode m =>
    simp only [carryOut, setModeRequest, setModeParked, setModeThreading, setModeRun, tryThreading, enterThreading]; repeat' split
    all_goals first
      | exact h
      | (refine State.CoilsOrdered.of_view (s := s) ?_ h; simp [coilView]; done)
      | (apply handImmediate_coils; refine State.CoilsOrdered.of_view (s := s) ?_ h; simp [coilView])
  | setProduct =>
    simp only [carryOut, setProductRequest, productStart]; repeat' split
    all_goals first | exact h | (apply handImmediate_coils; refine State.CoilsOrdered.of_view (s := s) ?_ h; simp [coilView])
  | cut =>
    simp only [carryOut, cutManually]; split
    · rename_i hm
      simp [State.mayCut] at hm
      exact cutRequest_coils _ (.of_view (s := s) (by simp [coilView]) h) (by simp [hm.1])
    · exact h
  | _ => exact .of_view (s := s) (by simp [coilView, carryOut, resetRequested]) h

/-- R84, R85, R100: `takeRequest` keeps the order of the coils. -/
theorem takeRequest_coils (f) (s : State) (h : s.CoilsOrdered) : (takeRequest f s).CoilsOrdered := by
  unfold takeRequest; refine .of_view (s := (perform f.payload (reserveEntry s)).1) (by simp [coilView]) ?_
  unfold perform; repeat' split
  · exact h
  · exact carryOut_coils _ _ h
  · exact h

/-- R84, R85, R100: `handMreq` keeps the order of the coils. -/
theorem handMreq_coils (f) (s : State) (h : s.CoilsOrdered) : (handMreq f s).CoilsOrdered := by
  unfold handMreq; repeat' split
  · exact raise_coils _ _ _ _ _ h
  · exact takeRequest_coils _ _ h
  · exact h

/-- R84, R85, R100: `takeHeld` keeps the order of the coils. -/
theorem takeHeld_coils (s : State) (h : s.CoilsOrdered) : (takeHeld s).CoilsOrdered := by
  unfold takeHeld; split
  · exact h
  · rename_i f _; exact .of_view (by simp [coilView]) (takeRequest_coils f _ h)

/-- R84, R85, R100: `forOwn` keeps the order of the coils. -/
theorem forOwn_coils (p r f) (s : State) (h : s.CoilsOrdered) : (forOwn p r f s).CoilsOrdered :=
  have h' : (countConsumed s).CoilsOrdered := .of_view (s := s) (by simp [coilView]) h
  forOwn_cases (.of_view (s := s) (by simp [coilView]) h) (.of_view (s := s) (by simp [coilView]) h)
    (raise_coils _ _ _ _ _ h) (handMreq_coils _ _ h') (cutdoneReceived_coils _ _ h')
    (takeReceived_coils _ h') (packedReceived_coils _ _ _ h')

/-- R84, R85, R100: `classify` keeps the order of the coils. -/
theorem classify_coils (p f) (s : State) (h : s.CoilsOrdered) : (classify p f s).CoilsOrdered :=
  classify_cases (handMreq_coils _ _ (.of_view (s := s) (by simp [coilView]) h))
    (.of_view (s := s) (by simp [coilView]) h) (raise_coils _ _ _ _ _ h) (forOwn_coils _ _ _ _ h)
    (.of_view (s := tap (s.stationOf f.src) f s) (by simp [coilView]) (tap_coils _ _ _ h))

/-- R84, R85, R100: `arrive` keeps the order of the coils. -/
theorem arrive_coils (p f) (s : State) (h : s.CoilsOrdered) : (arrive p f s).CoilsOrdered :=
  classify_coils _ _ _ (.of_view (by simp [coilView]) h)

/-- R84, R85, R100: `endArrival` keeps the order of the coils. -/
theorem endArrival_coils (s : State) (h : s.CoilsOrdered) : (endArrival s).CoilsOrdered
    := .of_view (by simp [coilView]) h

/-- R84, R85, R100: `characterReceived` keeps the order of the coils. -/
theorem characterReceived_coils (p c) (s : State) (h : s.CoilsOrdered) : (characterReceived p c s).CoilsOrdered := by
  unfold characterReceived goodReceived fillReceived storeCharacter frameComplete
  dsimp only
  repeat' split
  all_goals first
    | exact endArrival_coils _ (arrive_coils _ _ _ (.of_view (by simp [coilView]) h))
    | (refine State.CoilsOrdered.of_view ?_ h; simp [coilView])

/-- R84, R85, R100: `cutreqDeparted` keeps the order of the coils. -/
theorem cutreqDeparted_coils (f) (s : State) (h : s.CoilsOrdered) : (cutreqDeparted f s).CoilsOrdered := by
  unfold cutreqDeparted; split
  · rename_i hh
    simp [State.answers] at hh
    exact h.moved rfl h.opened h.room (fun _ => hh.2.2.2)
  · exact h

/-- R84, R85, R100: `emptyStage` keeps the order of the coils. -/
theorem emptyStage_coils (p) (s : State) (h : s.CoilsOrdered) :
    (emptyStage p s).CoilsOrdered := .of_view (by simp [coilView]) h

/-- R84, R85, R100: `sendAlarms` keeps the order of the coils. -/
theorem sendAlarms_coils (s : State) (h : s.CoilsOrdered) : (sendAlarms s).CoilsOrdered
    := .of_view (by simp [coilView]) h

/-- R84: the cleared coils are in order. -/
theorem coils_init (s : State) (h1 : s.tally.cutwait.running = false) (h2 : s.coil = CoilJob.cleared) :
    s.CoilsOrdered := by
  simp [State.CoilsOrdered, h1, h2, CoilJob.cleared, CoilRecord.first, labelledFirst, numbersRun, CoilState.isOpen, CoilState.cutRequested]

/-- R84, R85, R100: `departure` keeps the order of the coils. -/
theorem departure_coils (p) (s : State) (h : s.CoilsOrdered) : (departure p s).CoilsOrdered := by
  unfold departure departs; split
  · exact h
  · rename_i hd _
    have hrel : (releaseDeparted p hd (s.countPort p (fun c => { c with framesSent := bump c.framesSent }))).CoilsOrdered := .of_view (by simp [coilView]) h
    dsimp only; split
    · apply emptyStage_coils; unfold departedD; split
      · exact iqdDeparted_coils _ (cutreqDeparted_coils _ _ hrel)
      · exact cutreqDeparted_coils _ _ hrel
      · exact hrel
    · unfold finishU; split
      · exact hrel.moved (by simp [queueView, resetRequestEffect, CoilJob.afterResetRequest, CoilRecord.afterResetRequest])
          rfl (fun h => by cases h) (fun h => by cases h)
      · exact emptyStage_coils _ _ (sendAlarms_coils _ (takeHeld_coils _ (.of_view (by simp [coilView]) hrel)))
      · exact emptyStage_coils _ _ hrel
      · exact emptyStage_coils _ _ hrel

/-- R84, R85, R100: `timeBase` keeps the order of the coils. -/
theorem timeBase_coils (s : State) (h : s.CoilsOrdered) : (timeBaseExpired s).CoilsOrdered := by
  have H : ({ s with tally.haulwatch := s.tally.haulwatch.tick, tally.cutwait := s.tally.cutwait.tick } : State).CoilsOrdered := by
    refine h.moved rfl h.opened h.room (fun hr => h.wait ?_)
    revert hr; simp only [OneShot.tick, OneShot.underflow]; split <;> (try split) <;> simp
  unfold timeBaseExpired handExpiries
  have hw : s.tally.cutwait.expires = true → s.tally.cutwait.tick.running = false := by
    intro h; simp [OneShot.tick, h, OneShot.underflow]
  repeat' split
  · exact H
  · exact raise_coils _ _ _ _ _ H
  · exact cutwaitExpired_coils _ H (hw ‹_›)
  · exact cutwaitExpired_coils _ (raise_coils _ _ _ _ _ H) (by simpa [haulSilent] using hw ‹_›)
  · exact raise_coils _ _ _ _ _ (cutwaitExpired_coils _ H (hw ‹_›))

/-- R84, R85, R100: `mreqReceived` keeps the order of the coils. -/
theorem mreqReceived_coils (p a b) (s : State) (h : s.CoilsOrdered) : (mreqReceived p a b s).CoilsOrdered := by
  unfold mreqReceived
  exact withSlot_ind _ _ _ (.of_view (by simp [coilView]) h) fun _ => endArrival_coils _
    (handMreq_coils _ _ (.of_view (s := s) (by simp [coilView]) h))
end Sys2Proof.Machine
end

