-- ==== Sys2Proof/Laws/Examination.lean ====
section
/-! SUPPORT. What the consistency examinations answer (R4 to R7), and the address of a role (R177). -/

namespace Sys2Proof.Machine

/-! ## Rows of the station map -/

/-- A row of the map other than a default one stands in the list. -/
theorem station_get (t : Tables) (a : Nat) (h : (t.station a).role ≠ .unused) :
    t.stations[a]? = some (t.station a) := by
  unfold Tables.station at h ⊢
  rw [List.getD_eq_getElem?_getD] at h ⊢
  cases e : t.stations[a]? with
  | none => rw [e] at h; exact absurd rfl h
  | some r => rfl

/-- A property that no UNUSED row has holds of some row of the list exactly when it holds at some address. -/
theorem any_station (t : Tables) (p : StationRow → Bool) (hp : ∀ r, r.role = .unused → p r = false) :
    t.stations.any p = true ↔ ∃ a, p (t.station a) = true := by
  rw [List.any_eq_true]
  constructor
  · rintro ⟨r, hr, h⟩
    obtain ⟨a, ha, rfl⟩ := List.mem_iff_getElem.1 hr
    refine ⟨a, ?_⟩
    unfold Tables.station
    rw [List.getD_eq_getElem?_getD, List.getElem?_eq_getElem ha]
    exact h
  · rintro ⟨a, h⟩
    refine ⟨t.station a, List.mem_of_getElem? (station_get t a ?_), h⟩
    intro hu
    rw [hp _ hu] at h
    cases h

/-- R5: the map holds a MASTER exactly when some address has the role. -/
theorem hasMaster_iff (t : Tables) : t.hasMaster = true ↔ ∃ a, (t.station a).role = .master := by
  unfold Tables.hasMaster
  rw [any_station t _ (by intro r hr; simp [hr])]
  simp

/-- R181: the map holds no MASTER exactly when no address has the role. -/
theorem hasMaster_false_iff (t : Tables) : t.hasMaster = false ↔ ∀ a, (t.station a).role ≠ .master := by
  rw [← Bool.not_eq_true, hasMaster_iff]
  simp

/-- R177: without a row of the role the named default is the destination. -/
theorem addressOf_absent (t : Tables) (r : Role) (absent : Addr) (h : ∀ a, (t.station a).role ≠ r) :
    t.addressOf r absent = absent := by
  unfold Tables.addressOf Tables.lowestWithRole
  cases e : t.stations.findIdx? (fun row => row.role = r) with
  | none => rfl
  | some a =>
    obtain ⟨hl, hp, _⟩ := List.findIdx?_eq_some_iff_getElem.1 e
    refine absurd (of_decide_eq_true hp) ?_
    have := h a
    unfold Tables.station at this
    rwa [List.getD_eq_getElem?_getD, List.getElem?_eq_getElem hl] at this

/-- R177: the lowest address with the role is the destination. -/
theorem addressOf_lowest (t : Tables) (r : Role) (absent a : Addr) (hr : r ≠ .unused)
    (ha : (t.station a.toNat).role = r) (hb : ∀ b, b < a.toNat → (t.station b).role ≠ r) :
    t.addressOf r absent = a := by
  have hg := station_get t a.toNat (by rw [ha]; exact hr)
  have e : t.stations.findIdx? (fun row => row.role = r) = some a.toNat := by
    obtain ⟨hl, he⟩ := List.getElem?_eq_some_iff.1 hg
    rw [List.findIdx?_eq_some_iff_getElem]
    refine ⟨hl, by simpa [he] using ha, ?_⟩
    intro j hj
    have := hb j hj
    unfold Tables.station at this
    rw [List.getD_eq_getElem?_getD, List.getElem?_eq_getElem (by omega)] at this
    simpa using this
  unfold Tables.addressOf Tables.lowestWithRole
  rw [e]
  simp

/-! ## The station map (R5) -/

/-- R5: what the scan has met when it comes to an address. -/
def metBefore (t : Tables) (a : Nat) (seen : MapScan) : Prop :=
  (∀ r, r ≠ .unused → (r ∈ seen.roles ↔ ∃ b, b < a ∧ (t.station b).role = r))
    ∧ (∀ u, u ∈ seen.units ↔ ∃ b, b < a ∧ (t.station b).role = .head ∧ (t.station b).unit = u)

/-- R5: a row noted, the scan has met one address more. -/
theorem metBefore_note (t : Tables) (a : Nat) (seen : MapScan) (h : metBefore t a seen) :
    metBefore t (a + 1) (seen.note (t.station a)) := by
  obtain ⟨h1, h2⟩ := h
  refine ⟨?_, ?_⟩
  · intro r hr
    unfold MapScan.note
    rw [List.mem_cons, h1 r hr]
    constructor
    · rintro (rfl | ⟨b, hb, e⟩)
      · exact ⟨a, by omega, rfl⟩
      · exact ⟨b, by omega, e⟩
    · rintro ⟨b, hb, e⟩
      by_cases hba : b = a
      · subst hba; exact .inl e.symm
      · exact .inr ⟨b, by omega, e⟩
  · intro u
    unfold MapScan.note
    dsimp only
    by_cases hh : (t.station a).role = .head
    · rw [if_pos hh, List.mem_cons, h2 u]
      constructor
      · rintro (rfl | ⟨b, hb, e⟩)
        · exact ⟨a, by omega, hh, rfl⟩
        · exact ⟨b, by omega, e⟩
      · rintro ⟨b, hb, e⟩
        by_cases hba : b = a
        · subst hba; exact .inl e.2.symm
        · exact .inr ⟨b, by omega, e⟩
    · rw [if_neg hh, h2 u]
      constructor
      · rintro ⟨b, hb, e⟩
        exact ⟨b, by omega, e⟩
      · rintro ⟨b, hb, e⟩
        by_cases hba : b = a
        · subst hba; exact absurd e.1 hh
        · exact ⟨b, by omega, e⟩

/-- R5: the conditions on a row, in the order listed, in terms of the rows at lower addresses. -/
def stationFaulty (own : Addr) (t : Tables) (a : Nat) : Prop :=
  ((a = 127 ∨ a = own.toNat) ∧ (t.station a).role ≠ .unused)
    ∨ ((t.station a).role = .master ∧ ((t.station a).side ≠ .u ∨ ∃ b, b < a ∧ (t.station b).role = .master))
    ∨ (((t.station a).role = .knotter ∨ (t.station a).role = .hauloff ∨ (t.station a).role = .cutter
          ∨ (t.station a).role = .packer)
        ∧ ((t.station a).side ≠ .d ∨ ∃ b, b < a ∧ (t.station b).role = (t.station a).role))
    ∨ ((t.station a).role = .head ∧ ∃ b, b < a ∧ (t.station b).role = .head ∧ (t.station b).unit = (t.station a).unit)

/-- R5: a row fails the scan exactly when it is faulty. -/
theorem stationRowOk_iff (own : Addr) (t : Tables) (a : Nat) (seen : MapScan) (h : metBefore t a seen) :
    stationRowOk own seen a (t.station a) = true ↔ ¬stationFaulty own t a := by
  obtain ⟨h1, h2⟩ := h
  have hr := h1 (t.station a).role
  have hu := h2 (t.station a).unit
  unfold stationRowOk stationFaulty
  cases e : (t.station a).role <;> cases es : (t.station a).side <;> rw [e] at hr <;>
    simp [Role.atMostOne] at hr ⊢ <;> simp [hr, hu]

/-- R5: the first faulty row of the rows left is named; without one, a map without a MASTER fails at row 0. -/
theorem scanStations_answers (own : Addr) (t : Tables) (l : List StationRow) (a : Nat) (seen : MapScan)
    (hm : metBefore t a seen) (hl : ∀ k, t.stations[a + k]? = l[k]?) :
    (∀ b, a ≤ b → stationFaulty own t b → (∀ c, a ≤ c → c < b → ¬stationFaulty own t c) →
      scanStations own seen a l = some (tableStations, b))
    ∧ ((∀ b, a ≤ b → ¬stationFaulty own t b) → scanStations own seen a l =
        if t.hasMaster then none else some (tableStations, 0)) := by
  induction l generalizing a seen with
  | nil =>
    have hu : ∀ b, a ≤ b → (t.station b).role = .unused := by
      intro b hb
      have := hl (b - a)
      rw [show a + (b - a) = b from by omega] at this
      unfold Tables.station
      rw [List.getD_eq_getElem?_getD, this]
      rfl
    refine ⟨?_, ?_⟩
    · intro b hb hf _
      unfold stationFaulty at hf
      rw [hu b hb] at hf
      simp at hf
    · intro _
      unfold scanStations
      have : seen.roles.contains Role.master = true ↔ t.hasMaster = true := by
        rw [List.contains_iff_mem, hm.1 .master (by decide), hasMaster_iff]
        constructor
        · rintro ⟨b, _, e⟩
          exact ⟨b, e⟩
        · rintro ⟨b, e⟩
          refine ⟨b, Nat.lt_of_not_le (fun h => ?_), e⟩
          rw [hu b h] at e
          cases e
      simp only [this]
  | cons r l ih =>
    have hr : t.station a = r := by
      unfold Tables.station
      rw [List.getD_eq_getElem?_getD, show t.stations[a]? = some r from hl 0]
      rfl
    have hok := stationRowOk_iff own t a seen hm
    rw [hr] at hok
    have hn := metBefore_note t a seen hm
    rw [hr] at hn
    have h := ih (a + 1) (seen.note r) hn (fun k => by rw [← show a + (k + 1) = a + 1 + k from by omega, hl (k + 1)]; rfl)
    unfold scanStations
    refine ⟨?_, ?_⟩
    · intro b hb hf hc
      by_cases hba : b = a
      · subst hba
        rw [if_neg (fun e => hok.1 e hf)]
      · rw [if_pos (hok.2 (hc a (Nat.le_refl a) (by omega)))]
        exact h.1 b (by omega) hf (fun c h1 h2 => hc c (by omega) h2)
    · intro hn
      rw [if_pos (hok.2 (hn a (Nat.le_refl a)))]
      exact h.2 (fun b hb => hn b (by omega))

/-- R5: the station map examined. -/
theorem examineStations_answers (own : Addr) (t : Tables) :
    (∀ a, stationFaulty own t a → (∀ b, b < a → ¬stationFaulty own t b) →
      examineStations own t = some (tableStations, a))
    ∧ ((∀ a, ¬stationFaulty own t a) → examineStations own t =
        if t.hasMaster then none else some (tableStations, 0)) := by
  have h := scanStations_answers own t t.stations 0 { roles := [], units := [] }
    ⟨fun r _ => by simp, fun u => by simp⟩ (fun k => by rw [Nat.zero_add])
  exact ⟨fun a hf hb => h.1 a (Nat.zero_le a) hf (fun c _ hc => hb c hc), fun hn => h.2 (fun b _ => hn b)⟩

/-- R5: a map that passes holds no faulty row. -/
theorem stationFaulty_of_passes {own : Addr} {t : Tables} (h : examineStations own t = none) (a : Nat) :
    ¬stationFaulty own t a := by
  induction a using Nat.strongRecOn with
  | _ a ih =>
    intro hf
    rw [(examineStations_answers own t).1 a hf ih] at h
    cases h

/-- R176: after power-up every row is UNUSED. -/
theorem powerUp_unused (a : Nat) : (Tables.powerUp.station a).role = .unused := by
  unfold Tables.station
  simp only [Tables.powerUp, List.getD_eq_getElem?_getD, List.getElem?_replicate]
  split <;> rfl

/-! ## A product (R6) -/

/-- R6: a unit has a HEAD row exactly when some address carries it. -/
theorem hasHead_iff (t : Tables) (u : HeadUnit) :
    t.hasHead u = true ↔ ∃ a, (t.station a).role = .head ∧ (t.station a).unit = u := by
  unfold Tables.hasHead
  rw [any_station t _ (by intro r hr; simp [hr])]
  simp

/-- R6: the units are all taken. -/
theorem mem_allUnits (u : HeadUnit) : u ∈ allUnits := by
  unfold allUnits
  simp

/-- R6: the first lay row in use whose unit has no HEAD row is named. -/
theorem examineLays_unmapped (t : Tables) (slot : Slot) (u : HeadUnit) (hu : (t.layRow slot u).inUse = true)
    (hh : t.hasHead u = false) (hv : ∀ v, v < u → (t.layRow slot v).inUse = true → t.hasHead v = true) :
    examineLays t slot = some (tableLays, slot.val * 24 + u.val) := by
  have : allUnits.find? (fun u => (t.layRow slot u).inUse && !t.hasHead u) = some u := by
    rw [List.find?_eq_some_iff_append]
    refine ⟨by simp [hu, hh], allUnits.take u.val, allUnits.drop (u.val + 1), ?_, ?_⟩
    · have hl : u.val < allUnits.length := by simp [allUnits]
      have hg : allUnits[u.val]'hl = u := by simp [allUnits]
      have hd := List.drop_eq_getElem_cons hl
      rw [hg] at hd
      rw [← hd, List.take_append_drop]
    · intro v hv'
      obtain ⟨k, hk, e⟩ := List.mem_take_iff_getElem.1 hv'
      have hlt : v < u := by
        rw [← e]
        simp [allUnits, Fin.lt_def]
        omega
      by_cases hin : (t.layRow slot v).inUse = true
      · simp [hv v hlt hin]
      · simp [hin]
  unfold examineLays
  rw [this]

/-- R6: without a lay row in use the product's lay row for head unit 0 is named. -/
theorem examineLays_unused (t : Tables) (slot : Slot) (h : ∀ u, (t.layRow slot u).inUse = false) :
    examineLays t slot = some (tableLays, slot.val * 24) := by
  have h1 : allUnits.find? (fun u => (t.layRow slot u).inUse && !t.hasHead u) = none := by
    rw [List.find?_eq_none]
    intro u _
    simp [h u]
  unfold examineLays
  rw [h1]
  simp [h]

/-- R6: with a lay row in use, and every row in use mapped, the lay rows pass. -/
theorem examineLays_passes (t : Tables) (slot : Slot) (h : ∃ u, (t.layRow slot u).inUse = true)
    (hm : ∀ u, (t.layRow slot u).inUse = true → t.hasHead u = true) : examineLays t slot = none := by
  have h1 : allUnits.find? (fun u => (t.layRow slot u).inUse && !t.hasHead u) = none := by
    rw [List.find?_eq_none]
    intro u _
    by_cases hu : (t.layRow slot u).inUse = true
    · simp [hm u hu]
    · simp [hu]
  have h2 : allUnits.any (fun u => (t.layRow slot u).inUse) = true := by
    obtain ⟨u, hu⟩ := h
    exact List.any_eq_true.2 ⟨u, mem_allUnits u, hu⟩
  unfold examineLays
  rw [h1]
  dsimp only
  rw [if_pos h2]

/-- R6: the product row's conditions. -/
theorem consistent_iff (p : ProductRow) :
    p.consistent = true ↔ p.valid = true ∧ p.gradeB < p.gradeC ∧ p.gradeC < p.rejectAt := by
  unfold ProductRow.consistent
  simp [and_assoc]

/-! ## The mesh pattern (R7) -/

/-- R7: a path of steps followed from the start: each step's next is the one after it, and none stands twice. -/
def followsSteps (t : Tables) (start : StepIndex) (n : Nat) (path : Nat → StepIndex) : Prop :=
  path 0 = start ∧ (∀ k, k < n → (t.meshRow (path k)).next = some (path (k + 1)))
    ∧ (∀ j k, j < k → k ≤ n → path j ≠ path k)

/-- R7: a path without a repeated step holds at most the 64 steps. -/
theorem followsSteps_short {t : Tables} {start : StepIndex} {n : Nat} {path : Nat → StepIndex}
    (h : followsSteps t start n path) : n < 64 := by
  have hnd : ((List.range (n + 1)).map path).Nodup := by
    rw [List.Nodup, List.pairwise_map]
    refine List.Pairwise.imp_of_mem ?_ List.pairwise_lt_range
    intro j k _ hk hjk
    exact h.2.2 j k hjk (by have := List.mem_range.1 hk; omega)
  have := hnd.length_le_of_subset (l₂ := List.finRange 64) (fun x _ => List.mem_finRange x)
  simp at this
  omega

/-- R7: the walk from a step of the path, its earlier steps visited, to the path's last step. -/
theorem walkMesh_follows {t : Tables} {start : StepIndex} {n : Nat} {path : Nat → StepIndex}
    (h : followsSteps t start n path) (d k fuel : Nat) (visited : List StepIndex) (hk : k + d = n) (hf : d < fuel)
    (hv : ∀ x, x ∈ visited ↔ ∃ j, j < k ∧ path j = x)
    (hg : ∀ j, j < n → meshRowOk (t.meshRow (path j)) = true) :
    (meshRowOk (t.meshRow (path n)) = false → walkMesh t fuel visited (path k) = some (tableMesh, (path n).val))
    ∧ (meshRowOk (t.meshRow (path n)) = true →
        (t.meshRow (path n)).next = none ∨ (∃ j, j ≤ n ∧ (t.meshRow (path n)).next = some (path j)) →
        walkMesh t fuel visited (path k) = none) := by
  induction d generalizing k fuel visited with
  | zero =>
    obtain rfl : k = n := by omega
    obtain ⟨fuel, rfl⟩ : ∃ m, fuel = m + 1 := ⟨fuel - 1, by omega⟩
    unfold walkMesh
    refine ⟨?_, ?_⟩
    · intro hb
      rw [if_neg (by rw [hb]; decide)]
    · rintro hb (he | ⟨j, hj, he⟩)
      · rw [if_pos hb, he]
      · rw [if_pos hb, he]
        dsimp only
        rw [if_pos]
        rw [List.mem_cons, hv]
        by_cases hjk : j = k
        · exact .inl (congrArg path hjk)
        · exact .inr ⟨j, by omega, rfl⟩
  | succ d ih =>
    obtain ⟨fuel, rfl⟩ : ∃ m, fuel = m + 1 := ⟨fuel - 1, by omega⟩
    have hstep : walkMesh t (fuel + 1) visited (path k) = walkMesh t fuel (path k :: visited) (path (k + 1)) := by
      have hnext : (t.meshRow (path k)).next = some (path (k + 1)) := h.2.1 k (by omega)
      have hnew : ¬ path (k + 1) ∈ path k :: visited := by
        rw [List.mem_cons, hv]
        rintro (e | ⟨j, hj, e⟩)
        · exact h.2.2 k (k + 1) (by omega) (by omega) e.symm
        · exact h.2.2 j (k + 1) (by omega) (by omega) e
      conv => lhs; unfold walkMesh
      rw [if_pos (hg k (by omega)), hnext]
      dsimp only
      rw [if_neg hnew]
    rw [hstep]
    refine ih (k + 1) fuel (path k :: visited) (by omega) (by omega) ?_
    intro x
    rw [List.mem_cons, hv]
    constructor
    · rintro (rfl | ⟨j, hj, e⟩)
      · exact ⟨k, by omega, rfl⟩
      · exact ⟨j, by omega, e⟩
    · rintro ⟨j, hj, e⟩
      by_cases hjk : j = k
      · subst hjk
        exact .inl e.symm
      · exact .inr ⟨j, by omega, e⟩

/-- R7: the three conditions on a step. -/
theorem meshRowOk_iff (r : MeshRow) : meshRowOk r = true ↔ r.valid = true ∧ r.first ≤ r.last
    ∧ 0 ≤ (r.first : Int) - (r.rows / r.taperEvery : Nat) * r.widenLeft
    ∧ (r.last : Int) + (r.rows / r.taperEvery : Nat) * r.widenRight ≤ 511
    ∧ (r.first : Int) - (r.rows / r.taperEvery : Nat) * r.widenLeft
        ≤ (r.last : Int) + (r.rows / r.taperEvery : Nat) * r.widenRight := by
  unfold meshRowOk MeshRow.tapers
  simp [and_assoc]

/-- R7: the walk of a product along a path. -/
theorem examineMesh_follows {t : Tables} {p : ProductRow} {n : Nat} {path : Nat → StepIndex} (hk : p.kind = .twineNet)
    (h : followsSteps t p.startStep n path) (hg : ∀ j, j < n → meshRowOk (t.meshRow (path j)) = true) :
    (meshRowOk (t.meshRow (path n)) = false → examineMesh t p = some (tableMesh, (path n).val))
    ∧ (meshRowOk (t.meshRow (path n)) = true →
        (t.meshRow (path n)).next = none ∨ (∃ j, j ≤ n ∧ (t.meshRow (path n)).next = some (path j)) →
        examineMesh t p = none) := by
  have hw := walkMesh_follows h n 0 64 [] (by omega) (followsSteps_short h) (by simp) hg
  unfold examineMesh
  rw [hk, ← h.1]
  exact hw

end Sys2Proof.Machine
end

