-- ==== Sys2Proof/Laws/FrameStore.lean ====
section
/-! SUPPORT. The bounds of the frame store (R157 to R163, R170) through every operation. -/

namespace Sys2Proof.Machine

/-- What only a port's own operation and a placing change of the frame store. -/
@[simp] def slotView (s : State) :=
  (s.portU.receiver, s.portD.receiver, s.portU.transmitter, s.portD.transmitter, s.store.fqd, s.store.fqu,
    s.store.hold, s.store.arriving, s.store.reserved)

/-- What every operation but a port's own and a placing leaves of the frame store: no slot taken, no entry
without room. -/
structure StoreGrows (s t : State) : Prop where
  slots : slotView t = slotView s
  iqd : s.iqdHeld ≤ 4 → t.iqdHeld ≤ 4
  iqu : s.iquHeld ≤ t.iquHeld
  iqu4 : s.iquHeld ≤ 4 → t.iquHeld ≤ 4

/-- The transmitter of Port U is among what stays. -/
theorem StoreGrows.txU {s t : State} (h : StoreGrows s t) : t.portU.transmitter = s.portU.transmitter :=
  congrArg (fun v => v.2.2.1) h.slots

/-- The transmitter of Port D is among what stays. -/
theorem StoreGrows.txD {s t : State} (h : StoreGrows s t) : t.portD.transmitter = s.portD.transmitter :=
  congrArg (fun v => v.2.2.2.1) h.slots

/-- An arrival in progress is among what stays. -/
theorem StoreGrows.arriving {s t : State} (h : StoreGrows s t) : t.store.arriving = s.store.arriving :=
  congrArg (fun v => v.2.2.2.2.2.2.2.1) h.slots

/-- A reserved entry is among what stays. -/
theorem StoreGrows.reserved {s t : State} (h : StoreGrows s t) : t.store.reserved = s.store.reserved :=
  congrArg (fun v => v.2.2.2.2.2.2.2.2) h.slots

/-- R158: no forwarding slot is taken or released. -/
theorem StoreGrows.heldForwarding {s t : State} (h : StoreGrows s t) : t.heldForwarding = s.heldForwarding := by
  have e := h.slots
  simp only [slotView, Prod.mk.injEq] at e
  simp only [State.heldForwarding, e]

/-- Two operations that take nothing without room, one after the other. -/
theorem StoreGrows.trans {s t u : State} (h : StoreGrows s t) (k : StoreGrows t u) : StoreGrows s u where
  slots := k.slots.trans h.slots
  iqd := k.iqd ∘ h.iqd
  iqu := Nat.le_trans h.iqu k.iqu
  iqu4 := k.iqu4 ∘ h.iqu4

/-- What the bounds of the frame store read of a state. -/
def storeView (s : State) := (slotView s, s.store.iqd, s.store.iqu)

/-- R157 to R163, R170: states that agree on what is read keep the bounds of the frame store. -/
theorem StoreGrows.of_view {s t : State} (h : storeView t = storeView s) : StoreGrows s t := by
  have slots : slotView t = slotView s := congrArg Prod.fst h
  have entries := congrArg Prod.snd h
  simp only [storeView, Prod.mk.injEq] at entries
  have held : t.iqdHeld = s.iqdHeld ∧ t.iquHeld = s.iquHeld := by
    simp only [slotView, Prod.mk.injEq] at slots
    simp [State.iqdHeld, State.iquHeld, entries, slots]
  exact ⟨slots, fun x => held.1 ▸ x, Nat.le_of_eq held.2.symm, fun x => held.2 ▸ x⟩

/-- Nothing done takes nothing. -/
theorem StoreGrows.refl (s : State) : StoreGrows s s := .of_view rfl

/-- R157 to R163: `queueIqd` takes no slot and no entry without room. -/
theorem queueIqd_grows (s : State) (f) (h : s.iqdRoom = true) : StoreGrows s (s.queueIqd f) := by
  have h : s.store.iqd.length + transmitterEntries s.portD.transmitter < 4 := of_decide_eq_true h
  refine ⟨rfl, fun _ => ?_, Nat.le_refl _, id⟩
  simp [State.iqdHeld]; omega

/-- R157 to R163: `queueIqu` takes no slot and no entry without room. -/
theorem queueIqu_grows (s : State) (f m) (h : s.iquRoom = true) : StoreGrows s (s.queueIqu f m) := by
  have h : s.store.iqu.length + transmitterEntries s.portU.transmitter + s.store.reserved.toNat < 4 := of_decide_eq_true h
  refine ⟨rfl, id, ?_, fun _ => ?_⟩ <;> simp [State.iquHeld] <;> omega

/-- R157 to R163: `sendIfRoom` takes no slot and no entry without room. -/
theorem sendIfRoom_grows (s : State) (r) : StoreGrows s (sendIfRoom s r) := by
  unfold sendIfRoom; split
  · rename_i h; simp at h
    exact (queueIqu_grows s _ _ h.2).trans (.of_view rfl)
  · exact .refl _

/-- R157 to R163: `sendAlarmsOf` takes no slot and no entry without room. -/
theorem sendAlarmsOf_grows (l : List FaultRecord) (s : State) : StoreGrows s (l.foldl sendIfRoom s) := by
  induction l generalizing s with
  | nil => exact .refl _
  | cons r rest ih => exact (sendIfRoom_grows s r).trans (ih _)

/-- R157 to R163: `sendAlarms` takes no slot and no entry without room. -/
theorem sendAlarms_grows (s : State) : StoreGrows s (sendAlarms s) := sendAlarmsOf_grows _ _

/-- R157 to R163: `enterOccurrence` takes no slot and no entry without room. -/
theorem enterOccurrence_grows (o c) (s : State) : StoreGrows s (enterOccurrence o c s) := by
  unfold enterOccurrence; repeat' split
  · exact .of_view (by simp [storeView])
  · exact StoreGrows.trans (.of_view (by simp [storeView])) (sendAlarms_grows _)
  · exact .of_view (by simp [storeView])

/-- R157 to R163: `handle` takes no slot and no entry without room. -/
theorem handle_grows (o) (s : State) : StoreGrows s (handle o s) := by
  unfold handle; dsimp only; split
  · exact .of_view (by simp [storeView])
  · refine StoreGrows.trans ?_ ((enterOccurrence_grows o (s.tables.faultClass o.kind) (handDefect o (countOccurrence o.kind s))).trans (.of_view (by simp [storeView])))
    exact .of_view (by simp [storeView])

/-- R157 to R163: `raise` takes no slot and no entry without room. -/
theorem raise_grows (k a b c) (s : State) : StoreGrows s (raise k a b c s) := handle_grows _ _

/-- R157 to R163: `handleAll` takes no slot and no entry without room. -/
theorem handleAll_grows (l) (s : State) : StoreGrows s (handleAll l s) := by
  unfold handleAll
  induction l generalizing s with
  | nil => exact .refl _
  | cons o r ih => exact (handle_grows o s).trans (ih _)

/-- R157 to R163: `examineOverlength` takes no slot and no entry without room. -/
theorem examineOverlength_grows (s : State) : StoreGrows s (examineOverlength s) := by
  unfold examineOverlength; split
  · exact StoreGrows.trans (.of_view (by simp [storeView])) (raise_grows _ _ _ _ _)
  · exact .refl _

/-- R157 to R163: `sendCutreq` takes no slot and no entry without room. -/
theorem sendCutreq_grows (s : State) (h : s.iqdRoom = true) : StoreGrows s (sendCutreq s) :=
  (queueIqd_grows s _ h).trans (.of_view rfl)

/-- R157 to R163: `cutWithRoom` takes no slot and no entry without room. -/
theorem cutWithRoom_grows (s : State) : StoreGrows s (cutWithRoom s) := by
  unfold cutWithRoom; split
  · exact sendCutreq_grows _ ‹_›
  · exact .of_view (by simp [storeView])

/-- R157 to R163: `cutRequest` takes no slot and no entry without room. -/
theorem cutRequest_grows (s : State) : StoreGrows s (cutRequest s) := by
  unfold cutRequest; split
  · exact StoreGrows.trans (.of_view (by simp [storeView])) (raise_grows _ _ _ _ _)
  · exact cutWithRoom_grows _

/-- R157 to R163: `coilUnderflowed` takes no slot and no entry without room. -/
theorem coilUnderflowed_grows (l) (s : State) : StoreGrows s (coilUnderflowed l s) := by
  unfold coilUnderflowed; split
  · exact StoreGrows.trans (.of_view (by simp [storeView])) (cutRequest_grows _)
  · exact .refl _

/-- R157 to R163: `handImmediate` takes no slot and no entry without room. -/
theorem handImmediate_grows (s : State) : StoreGrows s (handImmediate s) := by
  unfold handImmediate; split
  · exact coilUnderflowed_grows _ _
  · exact .refl _

/-- R157 to R163: `manualCut` takes no slot and no entry without room. -/
theorem manualCut_grows (s : State) : StoreGrows s (manualCut s)
    := StoreGrows.trans (.of_view (by simp [storeView])) (cutRequest_grows _)

/-- R157 to R163: `sendLabel` takes no slot and no entry without room. -/
theorem sendLabel_grows (s : State) (h : s.iqdRoom = true) : StoreGrows s
    (sendLabel s) := (queueIqd_grows s _ h).trans (.of_view rfl)

/-- R157 to R163: `servePending` takes no slot and no entry without room. -/
theorem servePending_grows (s : State) : StoreGrows s (servePending s) := by
  unfold servePending; split
  · rename_i h; simp at h
    exact StoreGrows.trans (.of_view (by simp [storeView])) (sendLabel_grows _ h.2)
  · exact .refl _

/-- R157 to R163: `takeReceived` takes no slot and no entry without room. -/
theorem takeReceived_grows (s : State) : StoreGrows s (takeReceived s) := by
  unfold takeReceived; repeat' split
  · exact .of_view (by simp [storeView])
  · exact sendLabel_grows _ ‹_›
  · exact .of_view (by simp [storeView])

/-- R157 to R163: `iqdDeparted` takes no slot and no entry without room. -/
theorem iqdDeparted_grows (s : State) : StoreGrows s (iqdDeparted s) := by
  unfold iqdDeparted; split
  · rename_i h; simp at h
    exact (sendCutreq_grows _ h.2).trans (servePending_grows _)
  · exact servePending_grows _

/-- R157 to R163: `markUnderflowed` takes no slot and no entry without room. -/
theorem markUnderflowed_grows (a b) (s : State) : StoreGrows s (markUnderflowed a b s) := by
  unfold markUnderflowed; split
  · exact (queueIqd_grows s _ ‹_›).trans (.of_view rfl)
  · exact .of_view (by simp [storeView])

/-- R157 to R163: a frame queued toward a port with room takes one entry. -/
theorem queueToward_grows (p f) (s : State) (h : s.injectionRoom p = true) : StoreGrows s (s.queueToward p f) := by
  cases p
  · exact queueIqu_grows s _ _ h
  · exact queueIqd_grows s _ h

/-- R157 to R163: `nackPacked` takes no slot and no entry without room. -/
theorem nackPacked_grows (a b) (s : State) : StoreGrows s (nackPacked a b s) := by
  unfold nackPacked; split
  · exact queueIqd_grows s _ ‹_›
  · exact .of_view (by simp [storeView])

/-- R157 to R163: `roomMade` takes no slot and no entry without room. -/
theorem roomMade_grows (s : State) : StoreGrows s (roomMade s) := by
  unfold roomMade; split
  · exact (cutWithRoom_grows s).trans (.of_view (by simp [storeView]))
  · exact .refl _

/-- R157 to R163: `packedReceived` takes no slot and no entry without room. -/
theorem packedReceived_grows (a b) (s : State) : StoreGrows s (packedReceived a b s) := by
  unfold packedReceived packedNamed packOldest; repeat' split
  · exact .of_view (by simp [storeView])
  · exact nackPacked_grows _ _ _
  · exact StoreGrows.trans (.of_view (by simp [storeView])) (roomMade_grows _)
  · exact (nackPacked_grows _ _ _).trans (raise_grows _ _ _ _ _)

/-- R157 to R163: `addLength` takes no slot and no entry without room. -/
theorem addLength_grows (n) (s : State) : StoreGrows s (addLength n s)
    := StoreGrows.trans (.of_view (by simp [storeView])) (examineOverlength_grows _)

/-- R157 to R163: `cutwaitExpired` takes no slot and no entry without room. -/
theorem cutwaitExpired_grows (s : State) : StoreGrows s (cutwaitExpired s) :=
  StoreGrows.trans (StoreGrows.trans (.of_view (by simp [storeView])) (examineOverlength_grows _)) (raise_grows _ _ _ _ _)

/-- R157 to R163: `turnsReceived` takes no slot and no entry without room. -/
theorem turnsReceived_grows (u p) (s : State) : StoreGrows s (turnsReceived u p s) := by
  unfold turnsReceived takeTurns; repeat' split
  · exact .of_view (by simp [storeView])
  · dsimp only; split
    · exact StoreGrows.trans (.of_view (by simp [storeView])) (raise_grows _ _ _ _ _)
    · exact .of_view (by simp [storeView])
  · exact .of_view (by simp [storeView])

/-- R157 to R163: `windowEnded` takes no slot and no entry without room. -/
theorem windowEnded_grows (w) (s : State) : StoreGrows s (windowEnded w s) := by
  unfold windowEnded; split
  · exact StoreGrows.trans (.of_view (by simp [storeView])) (handleAll_grows _ _)
  · exact .of_view (by simp [storeView])

/-- R157 to R163: `rowdoneReceived` takes no slot and no entry without room. -/
theorem rowdoneReceived_grows (p) (s : State) : StoreGrows s (rowdoneReceived p s) := by
  unfold rowdoneReceived rowReported processRow; repeat' split
  · exact .of_view (by simp [storeView])
  · dsimp only; split
    · exact .of_view (by simp [storeView])
    · exact StoreGrows.trans (.of_view (by simp [storeView])) (handleAll_grows _ _)
  · exact .of_view (by simp [storeView])

/-- R157 to R163: `giveCoil` takes no slot and no entry without room. -/
theorem giveCoil_grows (n) (s : State) : StoreGrows s (giveCoil n s) := by
  unfold giveCoil; dsimp only; repeat' split
  · exact StoreGrows.trans (.of_view (by simp [storeView])) (coilUnderflowed_grows _ _)
  · exact .of_view (by simp [storeView])
  · exact .refl _

/-- R157 to R163: `giveMark` takes no slot and no entry without room. -/
theorem giveMark_grows (n) (s : State) : StoreGrows s (giveMark n s) := by
  unfold giveMark; dsimp only; repeat' split
  · exact StoreGrows.trans (.of_view (by simp [storeView])) (markUnderflowed_grows _ _ _)
  · exact .of_view (by simp [storeView])
  · exact .refl _

/-- R157 to R163: `giveWindow` takes no slot and no entry without room. -/
theorem giveWindow_grows (n) (s : State) : StoreGrows s (giveWindow n s) := by
  unfold giveWindow; dsimp only; repeat' split
  · exact StoreGrows.trans (.of_view (by simp [storeView])) (windowEnded_grows _ _)
  · exact .of_view (by simp [storeView])
  · exact .refl _

/-- R157 to R163: `haulForward` takes no slot and no entry without room. -/
theorem haulForward_grows (n) (s : State) : StoreGrows s (haulForward n s) := by
  unfold haulForward; dsimp only; split
  · exact .of_view (by simp [storeView])
  · refine StoreGrows.trans (.of_view (t := { countClipped (decide (min n (haulLimit - s.tally.haulTotal) < n)) s with
      tally.haulTotal := (countClipped (decide (min n (haulLimit - s.tally.haulTotal) < n)) s).tally.haulTotal + min n (haulLimit - s.tally.haulTotal) }) (by simp [storeView])) ?_
    exact (addLength_grows _ _).trans ((giveCoil_grows _ _).trans ((giveMark_grows _ _).trans (giveWindow_grows _ _)))

/-- R157 to R163: `applyIncrement` takes no slot and no entry without room. -/
theorem applyIncrement_grows (i) (s : State) : StoreGrows s (applyIncrement i s) := by
  unfold applyIncrement; repeat' split
  · exact .refl _
  · exact haulForward_grows _ _
  · exact raise_grows _ _ _ _ _
  · exact .of_view (by simp [storeView])

/-- R157 to R163: `haulReceived` takes no slot and no entry without room. -/
theorem haulReceived_grows (p) (s : State) : StoreGrows s (haulReceived p s) := by
  unfold haulReceived; split
  · exact .of_view (by simp [storeView])
  · exact StoreGrows.trans (.of_view (by simp [storeView])) (applyIncrement_grows _ _)

/-- R157 to R163: `openNewCoil` takes no slot and no entry without room. -/
theorem openNewCoil_grows (a b) (s : State) : StoreGrows s (openNewCoil a b s) := by
  unfold openNewCoil
  exact StoreGrows.trans (.of_view (by simp [storeView])) ((examineOverlength_grows (presetAtOpen (makeOpenCoil a s).changesOver (placeDefects b (chooseProduct (makeOpenCoil a s))))).trans (handImmediate_grows _))

/-- R157 to R163: `closeAndOpen` takes no slot and no entry without room. -/
theorem closeAndOpen_grows (a) (s : State) : StoreGrows s (closeAndOpen a s) := by
  have : ∀ c L k, StoreGrows s (openNewCoil L k (closeOpenCoil c s)) := fun c L k =>
    (StoreGrows.trans (.of_view (by simp [storeView])) (servePending_grows { stopCutwait s with coil.queue := s.coil.queue ++ [s.coil.openCoil.close s.product c] })).trans (openNewCoil_grows L k _)
  unfold closeAndOpen; dsimp only; split
  · exact (this _ _ _).trans (raise_grows _ _ _ _ _)
  · exact this _ _ _

/-- R157 to R163: `cutdoneReceived` takes no slot and no entry without room. -/
theorem cutdoneReceived_grows (p) (s : State) : StoreGrows s (cutdoneReceived p s) := by
  unfold cutdoneReceived; repeat' split
  · exact .of_view (by simp [storeView])
  · exact closeAndOpen_grows _ _
  · exact raise_grows _ _ _ _ _

/-- R157 to R163: `productStart` takes no slot and no entry without room. -/
theorem productStart_grows (a) (s : State) : StoreGrows s (productStart a s) := by
  unfold productStart; exact StoreGrows.trans (.of_view (by simp [storeView])) (handImmediate_grows _)

/-- R157 to R163: `enterThreading` takes no slot and no entry without room. -/
theorem enterThreading_grows (s : State) : StoreGrows s (enterThreading s) := by
  unfold enterThreading; dsimp only; split
  · exact .of_view (by simp [storeView])
  · exact StoreGrows.trans (.of_view (by simp [storeView])) (handImmediate_grows _)

/-- R157 to R163: `setModeRequest` takes no slot and no entry without room. -/
theorem setModeRequest_grows (a) (s : State) : StoreGrows s (setModeRequest a s).1 := by
  unfold setModeRequest setModeParked setModeThreading setModeRun tryThreading
  repeat' split
  all_goals first
    | exact .refl _
    | exact enterThreading_grows _
    | exact .of_view rfl

/-- R157 to R163: `carryOut` takes no slot and no entry without room. -/
theorem carryOut_grows (r) (s : State) : StoreGrows s (carryOut r s).1 := by
  cases r with
  | setMode m => exact setModeRequest_grows _ _
  | setProduct =>
    simp only [carryOut, setProductRequest]; repeat' split
    all_goals first | exact .refl _ | exact productStart_grows _ _
  | cut =>
    simp only [carryOut, cutManually]; split
    · exact manualCut_grows _
    · exact .refl _
  | _ => exact .of_view (by simp [storeView, carryOut, resetRequested])

/-- R157 to R163: `perform` takes no slot and no entry without room. -/
theorem perform_grows (f) (s : State) : StoreGrows s (perform f s).1 := by
  unfold perform; repeat' split
  · exact .refl _
  · exact carryOut_grows _ _
  · exact .refl _

/-- taking a request where an entry can be reserved -/
theorem takeRequest_grows (f) (s : State) (h : s.iquHeld < 4) (hr : s.store.reserved = false) : StoreGrows s
    (takeRequest f s) := by
  have g := perform_grows f.payload (reserveEntry s)
  have hr4 : (reserveEntry s).iquHeld = s.iquHeld + 1 := by simp [reserveEntry, State.iquHeld, hr]
  have hi := g.iqu
  have h4 := g.iqu4 (by omega)
  have hq : (takeRequest f s).iquHeld = (perform f.payload (reserveEntry s)).1.iquHeld := by
    have := g.reserved
    simp [takeRequest, queueReply, State.iquHeld, reserveEntry]; omega
  exact ⟨by simp [slotView, takeRequest, queueReply, reserveEntry, hr], g.iqd, by omega, by omega⟩

/-- Between events, or within an arrival: the numbers of the frame store. -/
structure Bounded (s : State) : Prop where
  reserved : s.store.reserved = false
  fqd : s.store.fqd.length ≤ 16
  fqu : s.store.fqu.length ≤ 16
  iqd : s.iqdHeld ≤ 4
  iqu : s.iquHeld ≤ 4
  slots : s.heldForwarding ≤ 24
  hold : s.store.hold.isSome = true → s.iquHeld = 4
  txU : ∀ h, s.portU.transmitter = some h → h.released = false
  txD : ∀ h, s.portD.transmitter = some h → h.released = false

/-- The bounds between events, in two parts. -/
theorem storeBounded_iff (s : State) : s.StoreBounded ↔ Bounded s ∧ s.store.arriving = false := by
  constructor
  · rintro ⟨⟨idle, none_, txU, txD⟩, rest⟩
    exact ⟨⟨none_, rest.1, rest.2.1, rest.2.2.1, rest.2.2.2.1, rest.2.2.2.2.1, rest.2.2.2.2.2, txU, txD⟩, idle⟩
  · rintro ⟨b, idle⟩
    exact ⟨⟨idle, b.reserved, b.txU, b.txD⟩, b.fqd, b.fqu, b.iqd, b.iqu, b.slots, b.hold⟩

/-- R157 to R163: the bounds stand where nothing is taken without room. -/
theorem Bounded.grows {s t : State} (hs : Bounded s) (g : StoreGrows s t) : Bounded t := by
  have e := g.slots
  simp only [slotView, Prod.mk.injEq] at e
  refine { reserved := g.reserved.trans hs.reserved, iqd := g.iqd hs.iqd, iqu := g.iqu4 hs.iqu, hold := fun h => ?_
           fqd := by simpa [e] using hs.fqd, fqu := by simpa [e] using hs.fqu
           slots := by rw [g.heldForwarding]; exact hs.slots
           txU := by simpa [e] using hs.txU, txD := by simpa [e] using hs.txD }
  have := hs.hold (by simpa [e] using h); have := g.iqu; have := g.iqu4 hs.iqu; omega

/-- R157 to R163, R170: states that agree on what is read keep the bounds of the frame store. -/
theorem Bounded.of_view {s t : State} (h : storeView t = storeView s) (hs : Bounded s) :
    Bounded t := hs.grows (.of_view h)

/-- arriving kept or given up -/
def Settles (s t : State) : Prop := t.store.arriving = s.store.arriving ∨ t.store.arriving = false

/-- R157 to R163, R170: `handMreq` keeps the bounds of the frame store. -/
theorem handMreq_bounded (f) (s : State) (h : Bounded s) (ha : s.store.arriving = true) : Bounded (handMreq f s) := by
  unfold handMreq; repeat' split
  · exact h.grows (raise_grows _ _ _ _ _)
  · rename_i hi
    simp [State.iquRoom] at hi
    exact h.grows (takeRequest_grows _ _ hi h.reserved)
  · rename_i hn hi
    simp [State.iquRoom] at hi
    have hh : s.store.hold = none := by simpa using hn
    have hs := h.slots
    refine ⟨h.reserved, h.fqd, h.fqu, h.iqd, h.iqu, ?_, fun _ => ?_, h.txU, h.txD⟩
    · simp [State.heldForwarding, ha, hh] at hs ⊢; omega
    · have := h.iqu; simp [State.iquHeld] at hi this ⊢; omega

/-- R157 to R163: `tap` takes no slot and no entry without room. -/
theorem tap_grows (r f) (s : State) : StoreGrows s (tap r f s) := by
  unfold tap; split
  · exact turnsReceived_grows _ _ _
  · exact haulReceived_grows _ _
  · exact rowdoneReceived_grows _ _
  · exact .refl _

/-- R157 to R163: `refuseFrame` takes no slot and no entry without room. -/
theorem refuseFrame_grows (p f) (s : State) : StoreGrows s (refuseFrame p f s) := by
  unfold refuseFrame nackUnsupportedFrame
  refine StoreGrows.trans (.of_view (t := countUnsupported s) rfl) ?_
  split
  · exact queueToward_grows _ _ _ ‹_›
  · exact .of_view (by simp [storeView])

/-- R157 to R163, R170: `forOwn` keeps the bounds of the frame store. -/
theorem forOwn_bounded (p r f) (s : State) (h : Bounded s) (ha : s.store.arriving = true) : Bounded
    (forOwn p r f s) :=
  have h' : Bounded (countConsumed s) := h.of_view (by simp [storeView])
  forOwn_cases (h.grows (refuseFrame_grows _ _ _)) (h.of_view (by simp [storeView]))
    (h.grows (raise_grows _ _ _ _ _)) (handMreq_bounded _ _ h' ha) (h'.grows (cutdoneReceived_grows _ _))
    (h'.grows (takeReceived_grows _)) (h'.grows (packedReceived_grows _ _ _))

/-- R157 to R163, R170: `place` keeps the bounds of the frame store. -/
theorem place_bounded (t a f) (s : State) (h : Bounded s) (ha : s.store.arriving = true) : Bounded
    (place t a f s) := by
  have hs := h.slots
  unfold place; dsimp only; repeat' split
  · refine ⟨h.reserved, by simp; omega, h.fqu, h.iqd, h.iqu, ?_, h.hold, h.txU, h.txD⟩
    simp [State.heldForwarding, ha] at hs ⊢; omega
  · exact h.of_view (by simp [storeView])
  · refine ⟨h.reserved, h.fqd, by simp; omega, h.iqd, h.iqu, ?_, h.hold, h.txU, h.txD⟩
    simp [State.heldForwarding, ha] at hs ⊢; omega
  · exact h.of_view (by simp [storeView])

/-- R157 to R163, R170: `routeAndAct` keeps the bounds of the frame store. -/
theorem routeAndAct_bounded (p f) (s : State) (h : Bounded s) (ha : s.store.arriving = true) : Bounded
    (routeAndAct p f s) := by
  unfold routeAndAct act actByEntry; repeat' split
  all_goals first
    | exact place_bounded _ _ _ _ h ha
    | exact h.of_view (by simp [storeView])

/-- R157 to R163, R170: `classify` keeps the bounds of the frame store. -/
theorem classify_bounded (p f) (s : State) (h : Bounded s) (ha : s.store.arriving = true) : Bounded
    (classify p f s) :=
  classify_cases (handMreq_bounded _ _ (h.of_view (by simp [storeView])) ha) (h.of_view (by simp [storeView]))
    (h.grows (raise_grows _ _ _ _ _)) (forOwn_bounded _ _ _ _ h ha)
    (routeAndAct_bounded _ _ _ (h.grows (tap_grows _ _ _)) ((tap_grows _ _ _).arriving.trans ha))

/-- R157 to R163, R170: `countPort` keeps the bounds of the frame store. -/
theorem countPort_bounded (p f) (s : State) (h : Bounded s) : Bounded
    (s.countPort p f) := by cases p <;> exact Bounded.of_view (s := s) rfl h

/-- A port counter is no arrival. -/
theorem countPort_arriving (p f) (s : State) : (s.countPort p f).store.arriving = s.store.arriving := by simp

/-- R157 to R163, R170: `arrive` keeps the bounds of the frame store. -/
theorem arrive_bounded (p f) (s : State) (h : Bounded s) (ha : s.store.arriving = true) : Bounded (arrive p f s) :=
  classify_bounded _ _ _ (countPort_bounded _ _ _ h) (by simpa using ha)

/-- R157 to R163, R170: `endArrival` keeps the bounds of the frame store. -/
theorem endArrival_bounded (s : State) (h : Bounded s) : Bounded (endArrival s) := by
  refine ⟨h.reserved, h.fqd, h.fqu, h.iqd, h.iqu, ?_, h.hold, h.txU, h.txD⟩
  have := h.slots
  simp [endArrival, State.setHoldOut, State.heldForwarding] at this ⊢; omega

/-- R157 to R163, R170: `setHoldOut` keeps the bounds of the frame store. -/
theorem setHoldOut_bounded (s : State) (h : Bounded s) : Bounded s.setHoldOut := h.of_view (by simp [storeView])

/-- R157 to R163, R170: `setReceiver` keeps the bounds of the frame store. -/
theorem setReceiver_bounded (p r) (s : State) (h : Bounded s) (hr : r.slots ≤
    (s.port p).receiver.slots ∨ s.freeForwarding ≠ 0) : Bounded (s.setReceiver p r) := by
  have hs := h.slots
  have h1 : r.slots ≤ 1 := by cases r <;> simp [Receiver.slots]
  refine ⟨?_, ?_, ?_, ?_, ?_, ?_, ?_, ?_, ?_⟩
  all_goals cases p
  all_goals first
    | exact h.reserved | exact h.fqd | exact h.fqu | exact h.iqd | exact h.iqu | exact h.hold | exact h.txU | exact h.txD
    | skip
  · simp [State.freeForwarding, State.heldForwarding, State.setReceiver, State.port, State.setPort] at hs hr ⊢; omega
  · simp [State.freeForwarding, State.heldForwarding, State.setReceiver, State.port, State.setPort] at hs hr ⊢; omega

/-- The frame store bounded and no arrival in progress. -/
def SB (s : State) : Prop := Bounded s ∧ s.store.arriving = false

/-- R157 to R163, R170: `endArrival` leaves the frame store bounded and no arrival in progress. -/
theorem endArrival_SB (s : State) (h : Bounded s) : SB (endArrival s) := ⟨endArrival_bounded s h, rfl⟩

/-- R157 to R163, R170: `withSlot` leaves the frame store bounded and no arrival in progress. -/
theorem withSlot_SB (p body) (s : State) (h : SB s) (hb : ∀ s, Bounded s → s.store.arriving = true → Bounded
    (body s)) : SB (withSlot p body s) := by
  refine withSlot_ind _ _ _ ⟨countPort_bounded _ _ _ h.1, by simpa using h.2⟩ fun hf => endArrival_SB _ (hb _ ?_ rfl)
  obtain ⟨h, ha⟩ := h
  refine ⟨h.reserved, h.fqd, h.fqu, h.iqd, h.iqu, ?_, h.hold, h.txU, h.txD⟩
  have := h.slots
  simp [State.freeForwarding, State.heldForwarding, ha] at hf this ⊢; omega

/-- R157 to R163, R170: `mreqReceived` leaves the frame store bounded and no arrival in progress. -/
theorem mreqReceived_SB (p a b) (s : State) (h : SB s) : SB (mreqReceived p a b s) :=
  withSlot_SB _ _ _ h fun _ hs ha => handMreq_bounded _ _ (hs.of_view (by simp [storeView])) (by simpa using ha)

/-- R157 to R163, R170: `frameComplete` leaves the frame store bounded and no arrival in progress. -/
theorem frameComplete_SB (p l k) (s : State) (h : SB s) (hf : (s.port p).receiver = .fill k) : SB
    (frameComplete p l s) := by
  unfold frameComplete; dsimp only
  have hb := setReceiver_bounded p .hunt s h.1 (.inl (by simp [Receiver.slots]))
  split
  · refine endArrival_SB _ (arrive_bounded _ _ _ ?_ rfl)
    refine ⟨hb.reserved, hb.fqd, hb.fqu, hb.iqd, hb.iqu, ?_, hb.hold, hb.txU, hb.txD⟩
    have := h.1.slots
    have ha := h.2
    cases p <;> simp [State.heldForwarding, State.setReceiver, State.port, State.setPort, Receiver.slots] at this hf ⊢ <;> simp [hf, ha] at this ⊢ <;> omega
  · exact ⟨setHoldOut_bounded _ (countPort_bounded _ _ _ hb), by simpa using h.2⟩

/-- R157 to R163, R170: `characterReceived` leaves the frame store bounded and no arrival in progress. -/
theorem characterReceived_SB (p c) (s : State) (h : SB s) : SB (characterReceived p c s) := by
  have HR : ∀ v (s : State), SB s → SB (headerReceived p v s) := by
    intro v s h
    unfold headerReceived; repeat' split
    · exact ⟨setReceiver_bounded _ _ _ (countPort_bounded _ _ _ h.1) (.inl (by simp [Receiver.slots])), by simpa using h.2⟩
    · exact ⟨setReceiver_bounded _ _ _ (countPort_bounded _ _ _ h.1) (.inl (by simp [Receiver.slots])), by simpa using h.2⟩
    · exact ⟨setHoldOut_bounded _ (setReceiver_bounded _ _ _ h.1 (.inr ‹_›)), by simpa using h.2⟩
  have AB : ∀ (s : State), SB s → SB (abandonFrame p s) := fun s h =>
    ⟨setHoldOut_bounded _ (setReceiver_bounded _ _ _ h.1 (.inl (by simp [Receiver.slots]))), by simpa using h.2⟩
  have CP : ∀ f (s : State), SB s → SB (s.countPort p f) := fun f s h => ⟨countPort_bounded _ _ _ h.1, by simpa using h.2⟩
  unfold characterReceived; split
  · unfold errorReceived countCharError; dsimp only; split
    · exact ⟨setReceiver_bounded _ _ _ (CP _ _ h).1 (.inl (by simp [Receiver.slots])), by simpa using h.2⟩
    · exact CP _ _ h
    · exact AB _ (CP _ _ (CP _ _ h))
  · unfold goodReceived; split
    · split
      · exact HR _ _ h
      · exact h
    · split
      · exact HR _ _ h
      · exact h
    · rename_i k hk
      have hk1 : ∀ l, (Receiver.fill l).slots ≤ (s.port p).receiver.slots := by intro l; rw [hk]; exact Nat.le_refl _
      unfold fillReceived truncateFrame storeCharacter countFormatDrop; dsimp only; repeat' split
      · exact AB _ (CP _ _ (CP _ _ h))
      · refine ⟨setReceiver_bounded _ _ _ (CP _ _ h).1 (.inl ?_), by simpa using h.2⟩
        simpa using hk1 _
      · exact AB _ (CP _ _ h)
      · exact frameComplete_SB _ _ _ _ h hk
      · exact ⟨setReceiver_bounded _ _ _ h.1 (.inl (hk1 _)), by simpa using h.2⟩

/-- R157 to R163, R170: `startFqd` leaves the frame store bounded and no arrival in progress. -/
theorem startFqd_SB (l : List FwdFrame) (s : State) (h : SB s) (hl : s.store.fqd = l) (ht :
    s.portD.transmitter = none) : SB (startFqd l s) := by
  induction l generalizing s with
  | nil => exact ⟨⟨h.1.reserved, by simp [startFqd], h.1.fqu, h.1.iqd, h.1.iqu, by have := h.1.slots; simp [startFqd, State.heldForwarding] at this ⊢; omega, h.1.hold, h.1.txU, h.1.txD⟩, h.2⟩
  | cons e rest ih =>
    have h16 := h.1.fqd
    have hsl := h.1.slots
    rw [hl] at h16
    unfold startFqd; split
    · refine ih _ ⟨⟨h.1.reserved, ?_, h.1.fqu, h.1.iqd, h.1.iqu, ?_, h.1.hold, h.1.txU, h.1.txD⟩, h.2⟩ rfl ht
      · simp [State.countClassifier] at h16 ⊢; omega
      · simp [State.countClassifier, State.heldForwarding, State.setHoldOut, hl] at hsl ⊢; omega
    · dsimp only
      have hv : ∀ (x : State), storeView (leaveFqd e x).2 = storeView x := by
        intro x; unfold leaveFqd rewriteSetpoint countSetpoint; dsimp only; repeat' split
        all_goals rfl
      have hp : ∀ (x : State), (leaveFqd e x).2.tables = x.tables := by
        intro x; unfold leaveFqd rewriteSetpoint countSetpoint; dsimp only; repeat' split
        all_goals rfl
      generalize hx : (leaveFqd e { s with store.fqd := rest }) = r
      have hvr := hv { s with store.fqd := rest }
      rw [hx] at hvr
      simp only [storeView, slotView, Prod.mk.injEq] at hvr
      refine ⟨⟨?_, ?_, ?_, ?_, ?_, ?_, ?_, ?_, ?_⟩, ?_⟩
      · simpa [startFrame, hvr] using h.1.reserved
      · simp [startFrame, hvr] at h16 ⊢; omega
      · simpa [startFrame, hvr] using h.1.fqu
      · have := h.1.iqd
        simp [startFrame, State.setTransmitter, State.setPort, State.port, State.iqdHeld, hvr, transmitterEntries, ht] at this ⊢; omega
      · have := h.1.iqu
        simpa [startFrame, State.setTransmitter, State.setPort, State.port, State.iquHeld, hvr] using this
      · simp [startFrame, State.setTransmitter, State.setPort, State.port, State.heldForwarding, hvr, hl, ht, transmitterSlots] at hsl ⊢; omega
      · intro hh
        have := h.1.hold (by simpa [startFrame, hvr] using hh)
        simpa [startFrame, State.setTransmitter, State.setPort, State.port, State.iquHeld, hvr] using this
      · simpa [startFrame, State.setTransmitter, State.setPort, State.port, hvr] using h.1.txU
      · simp [startFrame, State.setTransmitter, State.setPort, State.port]
      · simpa [startFrame, hvr] using h.2

/-- R157 to R163, R170: `transmitStarts` leaves the frame store bounded and no arrival in progress. -/
theorem transmitStarts_SB (p) (s : State) (h : SB s) : SB (transmitStarts p s) := by
  unfold transmitStarts; split
  · exact h
  · rename_i hn
    simp at hn
    have h0 := h.1
    obtain ⟨b1, b2, b3, b4, b5, b6, b7, b8, b9⟩ := h0
    cases p <;> simp only [State.port] at hn ⊢
    · unfold arbiterU; repeat' split
      · rename_i e rest hq
        refine ⟨⟨b1, b2, b3, b4, ?_, ?_, ?_, ?_, b9⟩, h.2⟩
        · simp [startFrame, State.setTransmitter, State.setPort, State.port, State.iquHeld, transmitterEntries, hn.1, hq] at b5 ⊢; omega
        · simp [startFrame, State.setTransmitter, State.setPort, State.port, State.heldForwarding, transmitterSlots, hn.1] at b6 ⊢; omega
        · intro hh; have := b7 hh
          simp [startFrame, State.setTransmitter, State.setPort, State.port, State.iquHeld, transmitterEntries, hn.1, hq] at this ⊢; omega
        · simp [startFrame, State.setTransmitter, State.setPort, State.port]
      · rename_i e rest hq
        refine ⟨⟨b1, b2, ?_, b4, ?_, ?_, ?_, ?_, b9⟩, h.2⟩
        · simp [hq] at b3; simp [startFrame]; omega
        · simp [startFrame, State.setTransmitter, State.setPort, State.port, State.iquHeld, transmitterEntries, hn.1] at b5 ⊢; omega
        · simp [startFrame, State.setTransmitter, State.setPort, State.port, State.heldForwarding, transmitterSlots, hn.1, hq] at b6 ⊢; omega
        · intro hh; have := b7 hh
          simp [startFrame, State.setTransmitter, State.setPort, State.port, State.iquHeld, transmitterEntries, hn.1] at this ⊢; omega
        · simp [startFrame, State.setTransmitter, State.setPort, State.port]
      · exact h
    · unfold arbiterD; repeat' split
      · refine ⟨⟨b1, b2, b3, ?_, b5, ?_, b7, b8, ?_⟩, h.2⟩
        · simp [startLatch, startFrame, State.setTransmitter, State.setPort, State.port, State.iqdHeld, transmitterEntries, hn.1] at b4 ⊢; omega
        · simp [startLatch, startFrame, State.setTransmitter, State.setPort, State.port, State.heldForwarding, transmitterSlots, hn.1] at b6 ⊢; omega
        · simp [startLatch, startFrame, State.setTransmitter, State.setPort, State.port]
      · rename_i e rest hq
        refine ⟨⟨b1, b2, b3, ?_, b5, ?_, b7, b8, ?_⟩, h.2⟩
        · simp [startFrame, State.setTransmitter, State.setPort, State.port, State.iqdHeld, transmitterEntries, hn.1, hq] at b4 ⊢; omega
        · simp [startFrame, State.setTransmitter, State.setPort, State.port, State.heldForwarding, transmitterSlots, hn.1] at b6 ⊢; omega
        · simp [startFrame, State.setTransmitter, State.setPort, State.port]
      · exact startFqd_SB _ _ h rfl hn.1

/-- R175: the cleared store is bounded. -/
theorem bounded_init (s : State) (h1 : s.store = Store.cleared) (hu : ∃ b, s.portU = PortState.cleared b) (hd :
    ∃ b, s.portD = PortState.cleared b) : SB s := by
  obtain ⟨a, ha⟩ := hu
  obtain ⟨b, hb⟩ := hd
  refine ⟨⟨?_, ?_, ?_, ?_, ?_, ?_, ?_, ?_, ?_⟩, ?_⟩ <;>
    simp [h1, ha, hb, Store.cleared, PortState.cleared, State.iqdHeld, State.iquHeld, State.heldForwarding, transmitterEntries, transmitterSlots, Receiver.slots]

/-- R157 to R163: `emptyStage` takes no slot and no entry without room. -/
theorem emptyStage_grows (p) (s t : State) (x : Holding) (hx : (s.port p).transmitter = some x) (hr :
    x.released = true) (g : StoreGrows s t) :
    StoreGrows (emptyStage p s) (emptyStage p t) := by
  have e0 : transmitterEntries (some x) = 0 := by
    cases x; simp at hr; subst hr; simp [transmitterEntries]
  have e := g.slots
  simp only [slotView, Prod.mk.injEq] at e
  have slots : slotView (emptyStage p t) = slotView (emptyStage p s) := by
    cases p <;> simp [emptyStage, State.setTransmitter, State.setPort, State.port, e]
  cases p <;> simp only [State.port] at hx
  · have held : ∀ y : State, y.portU.transmitter = some x → (emptyStage .u y).iquHeld = y.iquHeld := by
      intro y hy; simp only [State.iquHeld, hy, e0]; rfl
    exact ⟨slots, g.iqd, by rw [held s hx, held t (g.txU.trans hx)]; exact g.iqu,
      by rw [held s hx, held t (g.txU.trans hx)]; exact g.iqu4⟩
  · have held : ∀ y : State, y.portD.transmitter = some x → (emptyStage .d y).iqdHeld = y.iqdHeld := by
      intro y hy; simp only [State.iqdHeld, hy, e0]; rfl
    exact ⟨slots, by rw [held s hx, held t (g.txD.trans hx)]; exact g.iqd, g.iqu, g.iqu4⟩

/-- the state released, its stage emptied -/
theorem released_SB (p) (h : Holding) (s : State) (hs : SB s) (htx : (s.port p).transmitter = some h)
    (hh : p = .u → (∃ m, h.origin = .injected m) → s.store.hold = none) : SB (emptyStage p (releaseDeparted p h s)) := by
  obtain ⟨⟨b1, b2, b3, b4, b5, b6, b7, b8, b9⟩, ha⟩ := hs
  have hle : ∀ o : Option Holding, transmitterEntries none ≤ transmitterEntries o := by intro o; simp [transmitterEntries]
  have hst : ∀ y, storeView (emptyStage p (releaseDeparted p h y)) = storeView (emptyStage p y) := by
    intro y; cases p <;> unfold releaseDeparted <;> dsimp only <;> cases h.origin <;> rfl
  have key : SB (emptyStage p s) := by
    cases p <;> simp only [State.port] at htx
    · refine ⟨⟨b1, b2, b3, b4, ?_, ?_, ?_, ?_, b9⟩, ha⟩
      · simp [emptyStage, State.setTransmitter, State.setPort, State.port, State.iquHeld, transmitterEntries] at b5 ⊢; omega
      · simp [emptyStage, State.setTransmitter, State.setPort, State.port, State.heldForwarding, transmitterSlots] at b6 ⊢; omega
      · intro hsome
        have h4 := b7 hsome
        have hr := b8 _ htx
        cases ho : h.origin with
        | injected m => have := hh rfl ⟨m, ho⟩; simp [emptyStage, State.setTransmitter, State.setPort, State.port, this] at hsome
        | forwarded => 
          have : transmitterEntries (some h) = 0 := by cases h; simp at ho; subst ho; rfl
          simp only [State.iquHeld, htx, this] at h4
          exact h4
        | latch =>
          have : transmitterEntries (some h) = 0 := by cases h; simp at ho; subst ho; rfl
          simp only [State.iquHeld, htx, this] at h4
          exact h4
      · simp [emptyStage, State.setTransmitter, State.setPort, State.port]
    · refine ⟨⟨b1, b2, b3, ?_, b5, ?_, b7, b8, ?_⟩, ha⟩
      · simp [emptyStage, State.setTransmitter, State.setPort, State.port, State.iqdHeld, transmitterEntries] at b4 ⊢; omega
      · simp [emptyStage, State.setTransmitter, State.setPort, State.port, State.heldForwarding, transmitterSlots] at b6 ⊢; omega
      · simp [emptyStage, State.setTransmitter, State.setPort, State.port]
  have hv := hst s
  refine ⟨key.1.of_view hv, ?_⟩
  simp only [storeView, slotView, Prod.mk.injEq] at hv
  exact hv.1.2.2.2.2.2.2.2.1.trans key.2

/-- R150: the departing frame stands released in its transmitter. -/
theorem releaseDeparted_tx (p) (h : Holding) (s : State) : ((releaseDeparted p h s).port p).transmitter = some { h with released := true } := by
  cases p <;> unfold releaseDeparted <;> dsimp only <;> cases h.origin <;> rfl

/-- R157 to R163, R170: `finish` leaves the frame store bounded and no arrival in progress. -/
theorem finish_SB (p) (h : Holding) (s t : State) (hs : SB s) (htx : (s.port p).transmitter = some h)
    (hh : p = .u → (∃ m, h.origin = .injected m) → s.store.hold = none)
    (g : StoreGrows (releaseDeparted p h s) t) : SB (emptyStage p t) := by
  have g' := emptyStage_grows p _ t _ (releaseDeparted_tx p h s) rfl g
  have k := released_SB p h s hs htx hh
  exact ⟨k.1.grows g', g'.arriving.trans k.2⟩

/-- What `reportMark` leaves as it was of what is read. -/
theorem reportMark_view (m) (s : State) : storeView (reportMark m s) = storeView s := by cases m <;> rfl

/-- R157 to R163, R170: `departedInjU` leaves the frame store bounded and no arrival in progress. -/
theorem departedInjU_SB (m) (h : Holding) (ho : h.origin = .injected m) (s : State) (hs : SB s) (htx :
    s.portU.transmitter = some h) :
    SB (emptyStage .u (departedInjU m (releaseDeparted .u h s))) := by
  cases hhold : s.store.hold with
  | none =>
    refine finish_SB .u h s _ hs htx (fun _ _ => hhold) ?_
    have : (reportMark m (releaseDeparted .u h s)).store.hold = none := by
      have := reportMark_view m (releaseDeparted .u h s); simp only [storeView, slotView, Prod.mk.injEq] at this
      rw [this.1.2.2.2.2.2.2.1]; simp [releaseDeparted, ho, hhold]
    unfold departedInjU takeHeld; rw [this]
    exact StoreGrows.trans (.of_view (reportMark_view _ _)) (sendAlarms_grows _)
  | some f =>
    have hr := hs.1.txU _ htx
    have e1 : transmitterEntries (some h) = 1 := by cases h; simp at ho hr; subst ho hr; rfl
    have e0 : transmitterEntries (some { h with released := true }) = 0 := by cases h; simp [transmitterEntries]
    have h4 := hs.1.hold (by simp [hhold])
    -- the state without its hold
    have hs' : SB { s with store.hold := none } := by
      obtain ⟨⟨b1, b2, b3, b4, b5, b6, b7, b8, b9⟩, ha⟩ := hs
      refine ⟨⟨b1, b2, b3, b4, b5, ?_, (fun h => by cases h), b8, b9⟩, ha⟩
      simp [State.heldForwarding] at b6 ⊢; omega
    refine finish_SB .u h { s with store.hold := none } _ hs' htx (fun _ _ => rfl) ?_
    have hv := reportMark_view m (releaseDeparted .u h s)
    have hreq := takeRequest_grows f (reportMark m (releaseDeparted .u h s)) (by
        simp only [storeView, slotView, Prod.mk.injEq] at hv
        simp only [State.iquHeld, hv]
        simp only [State.iquHeld, htx, e1] at h4
        have : (releaseDeparted .u h s).portU.transmitter = some { h with released := true } := releaseDeparted_tx .u h s
        rw [this, e0]; simp [releaseDeparted, ho]; omega) (by
        simp only [storeView, slotView, Prod.mk.injEq] at hv
        rw [hv.1.2.2.2.2.2.2.2.2]; simp [releaseDeparted, ho]; exact hs.1.reserved)
    have hv' := hv
    simp only [storeView, slotView, Prod.mk.injEq] at hv'
    have hhold' : (reportMark m (releaseDeparted .u h s)).store.hold = some f := by
      rw [hv'.1.2.2.2.2.2.2.1]; simp [releaseDeparted, ho, hhold]
    unfold departedInjU takeHeld; rw [hhold']; dsimp only
    refine StoreGrows.trans ?_ (sendAlarms_grows _)
    have g0 := (StoreGrows.of_view hv).trans hreq
    have e := g0.slots
    simp only [slotView, Prod.mk.injEq] at e
    have hrel : releaseDeparted .u h { s with store.hold := none } = { releaseDeparted .u h s with store.hold := none } := by
      simp [releaseDeparted, ho, State.setTransmitter, State.setPort, State.port]
    rw [hrel]
    exact ⟨by simp [e], g0.iqd, g0.iqu, g0.iqu4⟩

/-- R157 to R163, R170: `departure` leaves the frame store bounded and no arrival in progress. -/
theorem departure_SB (p) (s : State) (h : SB s) : SB (departure p s) := by
  unfold departure; split
  · exact h
  · rename_i hd htx
    have hc : SB (s.countPort p (fun c => { c with framesSent := bump c.framesSent })) := ⟨countPort_bounded _ _ _ h.1, by simpa using h.2⟩
    have htx' : ((s.countPort p (fun c => { c with framesSent := bump c.framesSent })).port p).transmitter = some hd := by simpa using htx
    unfold departs; dsimp only; cases p
    · dsimp only; unfold finishU; split
      · exact bounded_init _ rfl ⟨_, rfl⟩ ⟨_, rfl⟩
      · rename_i m ho hne
        exact departedInjU_SB m hd (by assumption) _ hc htx'
      · rename_i ho
        exact finish_SB .u hd _ _ hc htx' (fun _ ⟨m, hm⟩ => by simp [ho] at hm) (.refl _)
      · rename_i ho
        exact finish_SB .u hd _ _ hc htx' (fun _ ⟨m, hm⟩ => by simp [ho] at hm) (.refl _)
    · dsimp only
      refine finish_SB .d hd _ _ hc htx' (fun h => by cases h) ?_
      unfold departedD cutreqDeparted; repeat' split
      all_goals first
        | exact .refl _
        | exact StoreGrows.trans (.of_view (by simp [storeView])) (iqdDeparted_grows _)
        | exact .of_view (by simp [storeView])

end Sys2Proof.Machine
end

