-- ==== Sys2Proof/Laws/FaultList.lean ====
section
/-! SUPPORT. The fault list (R125 to R130) through every operation. -/

namespace Sys2Proof.Machine

/-- What the fault list reads of a state. -/
def faultView (s : State) := (s.faults.list, s.faults.counters.length, s.faults.nextIdentity, s.portU.transmitter, s.store.iqu)

/-- the list of alarms out, any order -/
theorem State.FaultsListed.of {s t : State} (hl : t.faults.list = s.faults.list) (hc :
    t.faults.counters.length = s.faults.counters.length)
    (hn : t.faults.nextIdentity = s.faults.nextIdentity) (ha : t.alarmsOut = s.alarmsOut) (hs : s.FaultsListed) : t.FaultsListed := by
  simpa [State.FaultsListed, hl, hc, hn, ha] using hs

/-- R125 to R130: states that agree on what is read keep the fault list sound. -/
theorem State.FaultsListed.of_view {s t : State} (h : faultView t = faultView s) (hs : s.FaultsListed) :
    t.FaultsListed := by
  simp only [faultView, Prod.mk.injEq] at h
  obtain ⟨h1, h2, h3, h4, h5⟩ := h
  exact .of h1 h2 h3 (by simp [State.alarmsOut, h4, h5]) hs

/-- A record of a list with one record changed. -/
theorem mem_updateRecord {i : Nat} {f : FaultRecord → FaultRecord} {l : List FaultRecord} {r : FaultRecord} (h :
    r ∈ updateRecord i f l) :
    ∃ x ∈ l, r = if x.identity = i then f x else x := by
  simpa [updateRecord, eq_comm] using h

/-- R126: a change of flags keeps kinds and sources. -/
theorem updateRecord_pairs (i f) (l : List FaultRecord) (hf : ∀ r, (f r).kind = r.kind ∧ (f r).source = r.source) :
    (updateRecord i f l).map (fun r => (r.kind, r.source)) = l.map (fun r => (r.kind, r.source)) := by
  simp only [updateRecord, List.map_map]
  apply List.map_congr_left; intro r _; simp; split <;> simp [hf]

/-- A change of flags keeps the identities. -/
theorem updateRecord_identities (i f) (l : List FaultRecord) (hf : ∀ r : FaultRecord, (f r).identity = r.identity) :
    (updateRecord i f l).map FaultRecord.identity = l.map FaultRecord.identity := by
  simp only [updateRecord, List.map_map]
  apply List.map_congr_left; intro r _; simp; split <;> simp [hf]

/-- R128: a queued ALARM is on its way. -/
theorem queueAlarm_alarmsOut (s : State) (r) : (queueAlarm s r).alarmsOut = s.alarmsOut ++ [r.identity] := by
  simp [State.alarmsOut, queueAlarm, InjMark.alarmIdentity, State.queueIqu, List.filterMap_append]

/-- R125 to R130: `queueAlarm` keeps the fault list sound. -/
theorem queueAlarm_faults (s : State) (r) (h : s.FaultsListed) (hr : r ∈ s.faults.list) (hw : r.waits = true) :
    (queueAlarm s r).FaultsListed := by
  obtain ⟨a, b, c, d, e, f, g⟩ := h
  simp [FaultRecord.waits] at hw
  have hri := e r hr
  have hnot : r.identity ∉ s.alarmsOut := fun hm => by have := hri.2.2.1.2 hm; simp [hw.2] at this
  have hlist : (queueAlarm s r).faults.list = updateRecord r.identity (fun x => { x with queued := true }) s.faults.list := rfl
  refine ⟨by simpa [hlist, updateRecord] using a, b, ?_, ?_, ?_, ?_, ?_⟩
  · rw [hlist, updateRecord_pairs r.identity (fun x => { x with queued := true }) _ (fun _ => ⟨rfl, rfl⟩)]; exact c
  · rw [hlist, updateRecord_identities r.identity (fun x => { x with queued := true }) _ (fun _ => rfl)]; exact d
  · intro x hx
    obtain ⟨y, hy, rfl⟩ := mem_updateRecord hx
    have hyi := e y hy
    rw [queueAlarm_alarmsOut]
    split
    · rename_i hid
      have : y = r := inj_of_nodup d hy hr hid
      subst this
      exact ⟨hri.1, hri.2.1, by simp, by simp [hw.1]⟩
    · rename_i hid
      exact ⟨hyi.1, hyi.2.1, by simp [hid, hyi.2.2.1], hyi.2.2.2⟩
  · rw [queueAlarm_alarmsOut]; exact List.nodup_append.2 ⟨f, by simp, by intro x hx y hy; simp at hy; subst hy; intro he; subst he; exact hnot hx⟩
  · rw [queueAlarm_alarmsOut]; intro i hi
    rcases List.mem_append.1 hi with hi | hi
    · exact g i hi
    · simp at hi; subst hi; exact hri.2.1

/-- R125 to R130: `sendAlarmsOf` keeps the fault list sound. -/
theorem sendAlarmsOf_faults (l : List FaultRecord) (s : State) (h : s.FaultsListed) (hl :
    ∀ r ∈ l, r ∈ s.faults.list) (hn : (l.map FaultRecord.identity).Nodup) :
    (l.foldl sendIfRoom s).FaultsListed := by
  induction l generalizing s with
  | nil => exact h
  | cons r rest ih =>
    have hn' := List.nodup_cons.1 (by rw [List.map_cons] at hn; exact hn)
    refine ih _ ?_ ?_ hn'.2
    · unfold sendIfRoom; split
      · rename_i hw; simp at hw
        exact queueAlarm_faults _ _ h (hl r List.mem_cons_self) hw.1
      · exact h
    · intro x hx
      have := hl x (List.mem_cons_of_mem _ hx)
      unfold sendIfRoom; split
      · simp only [queueAlarm, updateRecord]
        refine List.mem_map.2 ⟨x, this, ?_⟩
        rw [if_neg]
        intro he; exact hn'.1 (he ▸ List.mem_map_of_mem hx)
      · exact this

/-- R125 to R130: `sendAlarms` keeps the fault list sound. -/
theorem sendAlarms_faults (s : State) (h : s.FaultsListed) :
    (sendAlarms s).FaultsListed := sendAlarmsOf_faults _ _ h (fun _ h => h) h.2.2.2.1

/-- R126: the stronger of two classes above NOTE is above NOTE. -/
theorem stronger_notNote (a b : FaultClass) (h : a ≠ .note) (h2 : b ≠ .note) : a.stronger b ≠ .note := by
  unfold FaultClass.stronger; split <;> assumption

/-- R125 to R130: `enterOccurrence` keeps the fault list sound. -/
theorem enterOccurrence_faults (o c) (s : State) (hc : c ≠ .note) (h : s.FaultsListed) :
    (enterOccurrence o c s).FaultsListed := by
  unfold enterOccurrence; repeat' split
  · obtain ⟨a, b, c', d, e, f, g⟩ := h
    have hm : ∀ (g : FaultRecord → FaultRecord) (l : List FaultRecord), True := fun _ _ => trivial
    refine ⟨by simpa using a, b, ?_, ?_, ?_, f, g⟩
    · have : (s.faults.list.map (fun r => if r.isOf o.kind o.source then r.coalesce o c else r)).map (fun r => (r.kind, r.source)) = s.faults.list.map (fun r => (r.kind, r.source)) := by
        rw [List.map_map]; apply List.map_congr_left; intro r _; simp; split <;> simp [FaultRecord.coalesce]
      simpa only [this] using c'
    · have : (s.faults.list.map (fun r => if r.isOf o.kind o.source then r.coalesce o c else r)).map FaultRecord.identity = s.faults.list.map FaultRecord.identity := by
        rw [List.map_map]; apply List.map_congr_left; intro r _; simp; split <;> simp [FaultRecord.coalesce]
      simpa only [this] using d
    · intro x hx
      obtain ⟨y, hy, rfl⟩ := List.mem_map.1 hx
      have hyi := e y hy
      split
      · exact ⟨stronger_notNote _ _ hyi.1 hc, hyi.2.1, hyi.2.2.1, hyi.2.2.2⟩
      · exact hyi
  · rename_i hno hlen
    apply sendAlarms_faults
    obtain ⟨a, b, c', d, e, f, g⟩ := h
    refine ⟨by simp; omega, b, ?_, ?_, ?_, f, fun i hi => Nat.lt_succ_of_lt (g i hi)⟩
    · simp only [List.map_append, List.map_cons, List.map_nil]
      refine List.nodup_append.2 ⟨c', by simp, ?_⟩
      intro x hx y hy; simp at hy; subst hy
      obtain ⟨r, hr, rfl⟩ := List.mem_map.1 hx
      intro he; apply hno
      simp [newRecord] at he
      exact List.any_eq_true.2 ⟨r, hr, by simp [FaultRecord.isOf, he.1, he.2]⟩
    · simp only [List.map_append, List.map_cons, List.map_nil]
      refine List.nodup_append.2 ⟨d, by simp, ?_⟩
      intro x hx y hy; simp at hy; subst hy
      obtain ⟨r, hr, rfl⟩ := List.mem_map.1 hx
      have := (e r hr).2.1
      simp [newRecord]; omega
    · intro r hr
      rcases List.mem_append.1 hr with hr | hr
      · have := e r hr
        exact ⟨this.1, Nat.lt_succ_of_lt this.2.1, this.2.2⟩
      · simp at hr; subst hr
        refine ⟨hc, Nat.lt_succ_self _, ?_, by simp [newRecord]⟩
        have : s.faults.nextIdentity ∉ s.alarmsOut := fun hm => absurd (g _ hm) (Nat.lt_irrefl _)
        simp only [newRecord]
        exact ⟨fun h => by simp at h, fun h => absurd h this⟩
  · exact .of rfl rfl rfl rfl h

/-- R125 to R130: `handle` keeps the fault list sound. -/
theorem handle_faults (o) (s : State) (h : s.FaultsListed) : (handle o s).FaultsListed := by
  have h1 : (handDefect o (countOccurrence o.kind s)).FaultsListed := .of (s := s) (by simp) (by simp [countOccurrence]) (by simp) (by simp [State.alarmsOut]) h
  unfold handle; dsimp only; split
  · exact h1
  · rename_i hn
    have := enterOccurrence_faults o _ _ hn h1
    exact .of_view (by simp [faultView]) this

/-- A receiver is no transmitter. -/
@[simp] theorem setReceiver_tx (s : State) (p r) : (s.setReceiver p r).portU.transmitter = s.portU.transmitter
    := by cases p <;> rfl

/-- A port counter is no transmitter. -/
@[simp] theorem countPort_tx (s : State) (p r) : (s.countPort p r).portU.transmitter = s.portU.transmitter
    := by cases p <;> rfl

/-- R125 to R130: `raise` keeps the fault list sound. -/
theorem raise_faults (k a b c) (s : State) (h : s.FaultsListed) :
    (raise k a b c s).FaultsListed := handle_faults _ _ h

/-- R125 to R130: `handleAll` keeps the fault list sound. -/
theorem handleAll_faults (l) (s : State) (h : s.FaultsListed) : (handleAll l s).FaultsListed := by
  unfold handleAll
  induction l generalizing s with
  | nil => exact h
  | cons o r ih => exact ih _ (handle_faults _ _ h)

/-- R125 to R130: `creepExit` keeps the fault list sound. -/
theorem creepExit_faults (s : State) (h : s.FaultsListed) : (creepExit s).FaultsListed
    := .of_view (s := s) (by simp [faultView]) h

/-- R125 to R130: `examineOverlength` keeps the fault list sound. -/
theorem examineOverlength_faults (s : State) (h : s.FaultsListed) : (examineOverlength s).FaultsListed := by
  unfold examineOverlength; split
  · exact raise_faults _ _ _ _ _ h
  · exact h

/-- R125 to R130: `cutRequest` keeps the fault list sound. -/
theorem cutRequest_faults (s : State) (h : s.FaultsListed) : (cutRequest s).FaultsListed := by
  unfold cutRequest; split
  · exact raise_faults _ _ _ _ _ (.of_view (s := s) (by simp [faultView]) h)
  · exact .of_view (s := s) (by simp [faultView]) h

/-- R125 to R130: `coilUnderflowed` keeps the fault list sound. -/
theorem coilUnderflowed_faults (l) (s : State) (h : s.FaultsListed) : (coilUnderflowed l s).FaultsListed := by
  unfold coilUnderflowed; split
  · exact cutRequest_faults _ h
  · exact h

/-- R125 to R130: `handImmediate` keeps the fault list sound. -/
theorem handImmediate_faults (s : State) (h : s.FaultsListed) : (handImmediate s).FaultsListed := by
  unfold handImmediate; split
  · exact coilUnderflowed_faults _ _ h
  · exact h

/-- R125 to R130: `manualCut` keeps the fault list sound. -/
theorem manualCut_faults (s : State) (h : s.FaultsListed) : (manualCut s).FaultsListed := cutRequest_faults _ h

/-- R125 to R130: `roomMade` keeps the fault list sound. -/
theorem roomMade_faults (s : State) (h : s.FaultsListed) : (roomMade s).FaultsListed := by
  unfold roomMade; split
  · exact creepExit_faults _ (.of_view (s := s) (by simp [faultView]) h)
  · exact h

/-- R125 to R130: a frame queued toward a port is no ALARM. -/
theorem queueToward_faults (p f) (s : State) (h : s.FaultsListed) : (s.queueToward p f).FaultsListed := by
  cases p
  · exact .of (s := s) rfl rfl rfl (by simp [State.queueToward, State.alarmsOut, InjMark.alarmIdentity]) h
  · exact .of_view (s := s) rfl h

/-- R125 to R130: `nackPacked` keeps the fault list sound. -/
theorem nackPacked_faults (a b) (s : State) (h : s.FaultsListed) : (nackPacked a b s).FaultsListed := by
  unfold nackPacked; split
  · exact .of_view (s := s) rfl h
  · exact .of_view (s := s) rfl h

/-- R125 to R130: `packedReceived` keeps the fault list sound. -/
theorem packedReceived_faults (a b) (s : State) (h : s.FaultsListed) : (packedReceived a b s).FaultsListed := by
  unfold packedReceived packedNamed packOldest; repeat' split
  · exact h
  · exact nackPacked_faults _ _ _ h
  · exact roomMade_faults _ h
  · exact raise_faults _ _ _ _ _ (nackPacked_faults _ _ _ h)

/-- R125 to R130: `addLength` keeps the fault list sound. -/
theorem addLength_faults (n) (s : State) (h : s.FaultsListed) :
    (addLength n s).FaultsListed := examineOverlength_faults _ h

/-- R125 to R130: `cutwaitExpired` keeps the fault list sound. -/
theorem cutwaitExpired_faults (s : State) (h : s.FaultsListed) : (cutwaitExpired s).FaultsListed :=
  raise_faults _ _ _ _ _ (examineOverlength_faults _ h)

/-- R125 to R130: `turnsReceived` keeps the fault list sound. -/
theorem turnsReceived_faults (u p) (s : State) (h : s.FaultsListed) : (turnsReceived u p s).FaultsListed := by
  unfold turnsReceived takeTurns; repeat' split
  · exact h
  · dsimp only; split
    · exact raise_faults _ _ _ _ _ h
    · exact h
  · exact h

/-- R125 to R130: `windowEnded` keeps the fault list sound. -/
theorem windowEnded_faults (w) (s : State) (h : s.FaultsListed) : (windowEnded w s).FaultsListed := by
  unfold windowEnded; split
  · exact handleAll_faults _ _ h
  · exact h

/-- R125 to R130: `rowdoneReceived` keeps the fault list sound. -/
theorem rowdoneReceived_faults (p) (s : State) (h : s.FaultsListed) : (rowdoneReceived p s).FaultsListed := by
  unfold rowdoneReceived rowReported processRow; repeat' split
  · exact h
  · dsimp only; split
    · exact h
    · exact handleAll_faults _ _ (.of_view (s := s) (by simp [faultView]) h)
  · exact h

/-- R125 to R130: `giveCoil` keeps the fault list sound. -/
theorem giveCoil_faults (n) (s : State) (h : s.FaultsListed) : (giveCoil n s).FaultsListed := by
  unfold giveCoil; dsimp only; repeat' split
  · exact coilUnderflowed_faults _ _ h
  · exact h
  · exact h

/-- R125 to R130: `giveMark` keeps the fault list sound. -/
theorem giveMark_faults (n) (s : State) (h : s.FaultsListed) :
    (giveMark n s).FaultsListed := .of_view (s := s) (by simp [faultView]) h

/-- R125 to R130: `giveWindow` keeps the fault list sound. -/
theorem giveWindow_faults (n) (s : State) (h : s.FaultsListed) : (giveWindow n s).FaultsListed := by
  unfold giveWindow; dsimp only; repeat' split
  · exact windowEnded_faults _ _ h
  · exact h
  · exact h

/-- R125 to R130: `haulReceived` keeps the fault list sound. -/
theorem haulReceived_faults (p) (s : State) (h : s.FaultsListed) : (haulReceived p s).FaultsListed := by
  unfold haulReceived; split
  · exact h
  · dsimp only
    have : (haulHeard (signedOf 2 (numberAt p 1 2)) { s with tally.haulTaken := bump s.tally.haulTaken }).FaultsListed := .of_view (s := s) (by simp [faultView]) h
    unfold applyIncrement; repeat' split
    · exact this
    · unfold haulForward; dsimp only; split
      · exact .of_view (by simp [faultView]) this
      · exact giveWindow_faults _ _ (giveMark_faults _ _ (giveCoil_faults _ _ (addLength_faults _ _ (.of_view (by simp [faultView]) this))))
    · exact raise_faults _ _ _ _ _ this
    · exact .of_view (by simp [faultView]) this

/-- R125 to R130: `openNewCoil` keeps the fault list sound. -/
theorem openNewCoil_faults (a b) (s : State) (h : s.FaultsListed) : (openNewCoil a b s).FaultsListed := by
  unfold openNewCoil; exact handImmediate_faults _ (examineOverlength_faults _ (.of_view (s := s) (by simp [faultView]) h))

/-- R125 to R130: `closeAndOpen` keeps the fault list sound. -/
theorem closeAndOpen_faults (a) (s : State) (h : s.FaultsListed) : (closeAndOpen a s).FaultsListed := by
  unfold closeAndOpen; dsimp only; split
  · exact raise_faults _ _ _ _ _ (openNewCoil_faults _ _ _ (.of_view (s := s) (by simp [faultView]) h))
  · exact openNewCoil_faults _ _ _ (.of_view (s := s) (by simp [faultView]) h)

/-- R125 to R130: `cutdoneReceived` keeps the fault list sound. -/
theorem cutdoneReceived_faults (p) (s : State) (h : s.FaultsListed) : (cutdoneReceived p s).FaultsListed := by
  unfold cutdoneReceived; repeat' split
  · exact h
  · exact closeAndOpen_faults _ _ h
  · exact raise_faults _ _ _ _ _ h

/-- R125 to R130: `productStart` keeps the fault list sound. -/
theorem productStart_faults (a) (s : State) (h : s.FaultsListed) : (productStart a s).FaultsListed := by
  unfold productStart; exact handImmediate_faults _ (.of_view (s := s) (by simp [faultView]) h)

/-- R125 to R130: `enterThreading` keeps the fault list sound. -/
theorem enterThreading_faults (s : State) (h : s.FaultsListed) : (enterThreading s).FaultsListed := by
  unfold enterThreading; dsimp only; split
  · exact .of_view (s := s) (by simp [faultView]) h
  · exact handImmediate_faults _ (.of_view (s := s) (by simp [faultView]) h)

/-- R125 to R130: `setModeRequest` keeps the fault list sound. -/
theorem setModeRequest_faults (a) (s : State) (h : s.FaultsListed) : (setModeRequest a s).1.FaultsListed := by
  unfold setModeRequest setModeParked setModeThreading setModeRun tryThreading
  repeat' split
  all_goals first
    | exact h
    | exact enterThreading_faults _ h

/-- R125 to R130: `filter` keeps the fault list sound. -/
theorem filter_faults (f) (s : State) (h : s.FaultsListed) :
    ({ s with faults.list := s.faults.list.filter f } : State).FaultsListed := by
  obtain ⟨a, b, c, d, e, f', g⟩ := h
  have hs : (s.faults.list.filter f).Sublist s.faults.list := List.filter_sublist
  exact ⟨Nat.le_trans hs.length_le a, b, c.sublist (hs.map _), d.sublist (hs.map _), fun r hr => e r (hs.subset hr), f', g⟩

/-- R125 to R130: `carryOut` keeps the fault list sound. -/
theorem carryOut_faults (r) (s : State) (h : s.FaultsListed) : (carryOut r s).1.FaultsListed := by
  cases r with
  | setMode m => exact setModeRequest_faults _ _ h
  | setProduct =>
    simp only [carryOut, setProductRequest]; repeat' split
    all_goals first | exact h | exact productStart_faults _ _ h
  | cut =>
    simp only [carryOut, cutManually]; split
    · exact manualCut_faults _ h
    · exact h
  | clearFault =>
    simp only [carryOut, clearFaultRequest]; split
    · exact h
    · split
      · exact creepExit_faults _ (filter_faults _ _ h)
      · exact h
  | clearAll =>
    refine creepExit_faults _ ?_
    obtain ⟨a, b, c, d, e, f, g⟩ := h
    exact ⟨by simp, b, by simp, by simp, by simp, f, g⟩
  | _ => exact .of_view (s := s) (by simp [faultView, carryOut, resetRequested]) h

/-- R192: no reply is an ALARM. -/
theorem carryOut_mark (r) (s : State) : (carryOut r s).2.mark.alarmIdentity = none := by
  cases r <;> simp only [carryOut, writeFieldsRequest, setModeRequest, setModeParked, setModeThreading, setModeRun, tryThreading, setProductRequest, setNextRequest, releaseRequest,
    cutManually, clearFaultRequest, clearAllRequest, clearCountersRequest, setAddressRequest, resetRequested, readMeshRequest, readRowReply, rowPage, readFaultsReply, faultRecordsReply, faultCountersReply, readCoilReply, coilPage,
    readHeadReply, readMeshReply, readStatusReply, readCountersReply, Reply.bare, Reply.ok, Reply.invalidTable, Reply.refusedFor] <;> repeat' split
  all_goals rfl

/-- R192: no reply is an ALARM. -/
theorem perform_mark (f) (s : State) : (perform f s).2.mark.alarmIdentity = none := by
  unfold perform; repeat' split
  · rfl
  · exact carryOut_mark _ _
  · rfl

/-- R125 to R130: `takeRequest` keeps the fault list sound. -/
theorem takeRequest_faults (f) (s : State) (h : s.FaultsListed) : (takeRequest f s).FaultsListed := by
  have hp : (perform f.payload (reserveEntry s)).1.FaultsListed := by
    unfold perform; repeat' split
    · exact h
    · exact carryOut_faults _ _ h
    · exact h
  have hm := perform_mark f.payload (reserveEntry s)
  refine .of (s := (perform f.payload (reserveEntry s)).1) rfl rfl rfl ?_ hp
  simp [takeRequest, queueReply, State.alarmsOut, hm]

/-- R125 to R130: `handMreq` keeps the fault list sound. -/
theorem handMreq_faults (f) (s : State) (h : s.FaultsListed) : (handMreq f s).FaultsListed := by
  unfold handMreq; repeat' split
  · exact raise_faults _ _ _ _ _ h
  · exact takeRequest_faults _ _ h
  · exact h

/-- R125 to R130: `takeHeld` keeps the fault list sound. -/
theorem takeHeld_faults (s : State) (h : s.FaultsListed) : (takeHeld s).FaultsListed := by
  unfold takeHeld; split
  · exact h
  · rename_i f _; exact .of_view (s := takeRequest f s) rfl (takeRequest_faults f _ h)

/-- R125 to R130: `refuseFrame` keeps the fault list sound. -/
theorem refuseFrame_faults (p f) (s : State) (h : s.FaultsListed) : (refuseFrame p f s).FaultsListed := by
  have h' : (countUnsupported s).FaultsListed := .of_view (s := s) rfl h
  unfold refuseFrame nackUnsupportedFrame; split
  · exact queueToward_faults _ _ _ h'
  · exact .of_view (s := countUnsupported s) rfl h'

/-- R125 to R130: `tap` keeps the fault list sound. -/
theorem tap_faults (r f) (s : State) (h : s.FaultsListed) : (tap r f s).FaultsListed := by
  unfold tap; split
  · exact turnsReceived_faults _ _ _ h
  · exact haulReceived_faults _ _ h
  · exact rowdoneReceived_faults _ _ h
  · exact h

/-- R125 to R130: `forOwn` keeps the fault list sound. -/
theorem forOwn_faults (p r f) (s : State) (h : s.FaultsListed) : (forOwn p r f s).FaultsListed :=
  have h' : (countConsumed s).FaultsListed := .of_view (s := s) rfl h
  forOwn_cases (refuseFrame_faults _ _ _ h) (.of_view (s := s) rfl h) (raise_faults _ _ _ _ _ h)
    (handMreq_faults _ _ h') (cutdoneReceived_faults _ _ h')
    (.of_view (s := s) (by simp [faultView]) h) (packedReceived_faults _ _ _ h')

/-- R125 to R130: `classify` keeps the fault list sound. -/
theorem classify_faults (p f) (s : State) (h : s.FaultsListed) : (classify p f s).FaultsListed :=
  classify_cases (handMreq_faults _ _ (.of_view (s := s) rfl h)) (.of_view (s := s) rfl h)
    (raise_faults _ _ _ _ _ h) (forOwn_faults _ _ _ _ h)
    (.of_view (s := tap (s.stationOf f.src) f s) (by simp [faultView]) (tap_faults _ _ _ h))

/-- R125 to R130: `arrive` keeps the fault list sound. -/
theorem arrive_faults (p f) (s : State) (h : s.FaultsListed) : (arrive p f s).FaultsListed :=
  classify_faults _ _ _ (.of_view (s := s) (by simp [faultView]) h)

/-- R125 to R130: `endArrival` keeps the fault list sound. -/
theorem endArrival_faults (s : State) (h : s.FaultsListed) : (endArrival s).FaultsListed := .of_view (s := s) rfl h

/-- R125 to R130: `characterReceived` keeps the fault list sound. -/
theorem characterReceived_faults (p c) (s : State) (h : s.FaultsListed) : (characterReceived p c s).FaultsListed := by
  unfold characterReceived goodReceived fillReceived storeCharacter frameComplete errorReceived countCharError truncateFrame headerReceived abandonFrame countFormatDrop
  dsimp only
  repeat' split
  all_goals first
    | exact endArrival_faults _ (arrive_faults _ _ _ (.of_view (s := s) (by simp [faultView]) h))
    | exact h
    | (refine State.FaultsListed.of_view (s := s) ?_ h; simp [faultView])

/-- R136: the cleared list is sound. -/
theorem faults_init (s : State) (h1 : s.faults = FaultDispatch.cleared) (h2 : s.store.iqu = []) (h3 :
    s.portU.transmitter = none) : s.FaultsListed := by
  simp [State.FaultsListed, State.alarmsOut, h1, h2, h3, FaultDispatch.cleared]

/-- What `startFqd` leaves as it was of what is read. -/
theorem startFqd_view (l s) : faultView (startFqd l s) = faultView s := by
  induction l generalizing s with
  | nil => rfl
  | cons e rest ih =>
    unfold startFqd; split
    · exact (ih _).trans rfl
    · have : ∀ x, faultView (leaveFqd e x).2 = faultView x := by
        intro x; unfold leaveFqd rewriteSetpoint countSetpoint; dsimp only; repeat' split
        all_goals rfl
      exact this { s with store.fqd := rest }

/-- R125 to R130: `transmitStarts` keeps the fault list sound. -/
theorem transmitStarts_faults (p) (s : State) (h : s.FaultsListed) : (transmitStarts p s).FaultsListed := by
  unfold transmitStarts; split
  · exact h
  · rename_i hn; simp at hn
    cases p <;> simp only [State.port] at hn ⊢
    · unfold arbiterU; repeat' split
      · rename_i e rest hq
        refine .of (s := s) rfl rfl rfl ?_ h
        simp [State.alarmsOut, startFrame, State.setTransmitter, State.setPort, State.port, Holding.alarmIdentity, hn.1, hq, List.filterMap_cons]
        cases e.mark.alarmIdentity <;> simp
      · refine .of (s := s) rfl rfl rfl ?_ h
        simp [State.alarmsOut, startFrame, State.setTransmitter, State.setPort, State.port, Holding.alarmIdentity, hn.1]
      · exact h
    · unfold arbiterD; repeat' split
      · exact .of_view (s := s) rfl h
      · exact .of_view (s := s) rfl h
      · exact .of_view (s := s) (startFqd_view _ _) h
/-- a departing ALARM: released and marked -/
theorem departing_faults (m) (h : Holding) (ho : h.origin = .injected m) (hr : h.released = false) (s : State) (htx :
    s.portU.transmitter = some h) (hs : s.FaultsListed) :
    (reportMark m (releaseDeparted .u h s)).FaultsListed := by
  obtain ⟨a, b, c, d, e, f, g⟩ := hs
  have ha : s.alarmsOut = m.alarmIdentity.toList ++ s.store.iqu.filterMap (fun e => e.mark.alarmIdentity) := by
    simp [State.alarmsOut, htx, Holding.alarmIdentity, ho, hr]
  have hrel : (releaseDeparted .u h s).alarmsOut = s.store.iqu.filterMap (fun e => e.mark.alarmIdentity) := by
    simp [State.alarmsOut, releaseDeparted, ho, State.setTransmitter, State.setPort, State.port, Holding.alarmIdentity]
  cases hm : m.alarmIdentity with
  | none =>
    rw [hm] at ha
    refine .of (s := s) ?_ ?_ ?_ ?_ ⟨a, b, c, d, e, f, g⟩
    · cases m <;> simp [InjMark.alarmIdentity] at hm <;> simp [reportMark]
    · cases m <;> simp [reportMark]
    · cases m <;> simp [reportMark]
    · have : (reportMark m (releaseDeparted .u h s)).alarmsOut = (releaseDeparted .u h s).alarmsOut := by
        cases m <;> rfl
      rw [this, hrel, ha]; simp
  | some i =>
    rw [hm] at ha
    cases m <;> simp [InjMark.alarmIdentity] at hm
    subst hm
    rename_i j
    have hl : (reportMark (.alarm j) (releaseDeparted .u h s)).faults.list = updateRecord j (fun r => { r with queued := false, notified := true }) s.faults.list := by
      simp [reportMark, markNotified]
    have hal : (reportMark (.alarm j) (releaseDeparted .u h s)).alarmsOut = s.store.iqu.filterMap (fun e => e.mark.alarmIdentity) := hrel
    rw [ha] at e f g
    simp at f
    have hni : (reportMark (.alarm j) (releaseDeparted .u h s)).faults.nextIdentity = s.faults.nextIdentity := by simp [reportMark]
    rw [← hni] at g
    rw [← hni] at e
    refine ⟨by rw [hl]; simpa [updateRecord] using a, by simpa [reportMark, markNotified] using b, ?_, ?_, ?_, ?_, ?_⟩
    · rw [hl, updateRecord_pairs j (fun r => { r with queued := false, notified := true }) _ (fun _ => ⟨rfl, rfl⟩)]; exact c
    · rw [hl, updateRecord_identities j (fun r => { r with queued := false, notified := true }) _ (fun _ => rfl)]; exact d
    · rw [hl, hal]; intro x hx
      obtain ⟨y, hy, rfl⟩ := mem_updateRecord hx
      have hyi := e y hy
      split
      · rename_i hid
        refine ⟨hyi.1, hyi.2.1, ?_, by simp⟩
        simp only [Bool.false_eq_true, false_iff]
        rw [hid]; simpa using f.1
      · rename_i hid
        refine ⟨hyi.1, hyi.2.1, ?_, hyi.2.2.2⟩
        rw [hyi.2.2.1]; simp [hid]
    · rw [hal]; exact f.2
    · rw [hal]; intro i hi; exact g i (by simp at hi ⊢; exact .inr hi)

/-- R125 to R130: `departure` keeps the fault list sound. -/
theorem departure_faults (p) (s : State) (hb : s.StoreBounded) (h : s.FaultsListed) :
    (departure p s).FaultsListed := by
  unfold departure; split
  · exact h
  · rename_i hd htx
    have hc : (s.countPort p (fun c => { c with framesSent := bump c.framesSent })).FaultsListed := .of_view (s := s) (by simp [faultView]) h
    unfold departs; dsimp only; cases p
    · have htx' : (s.countPort .u (fun c => { c with framesSent := bump c.framesSent })).portU.transmitter = some hd := htx
      have hr : hd.released = false := hb.1.2.2.1 _ htx
      have E : ∀ y : State, y.portU.transmitter = some { hd with released := true } → y.FaultsListed → (emptyStage .u y).FaultsListed := by
        intro y hy hyf
        refine .of (s := y) rfl rfl rfl ?_ hyf
        have : Holding.alarmIdentity { hd with released := true } = none := by unfold Holding.alarmIdentity; split <;> rfl
        simp [State.alarmsOut, hy, emptyStage, State.setTransmitter, State.setPort, State.port, this]
      dsimp only; unfold finishU; split
      · exact faults_init _ rfl rfl rfl
      · rename_i m _ ho
        refine E _ ?_ ?_
        · have := releaseDeparted_tx .u hd (s.countPort .u (fun c => { c with framesSent := bump c.framesSent }))
          simp only [State.port] at this
          simpa [departedInjU] using this
        · exact sendAlarms_faults _ (takeHeld_faults _ (departing_faults m hd (by assumption) hr _ htx' hc))
      · rename_i ho
        refine E _ (releaseDeparted_tx .u hd (s.countPort .u (fun c => { c with framesSent := bump c.framesSent }))) ?_
        refine .of (s := s) (by simp) (by simp) (by simp) ?_ h
        simp [State.alarmsOut, releaseDeparted, ho, State.setTransmitter, State.setPort, State.port, Holding.alarmIdentity, State.setHoldOut, State.countPort]
        have : s.portU.transmitter = some hd := htx
        simp [this, ho]
      · rename_i ho
        refine E _ (releaseDeparted_tx .u hd (s.countPort .u (fun c => { c with framesSent := bump c.framesSent }))) ?_
        refine .of (s := s) (by simp) (by simp) (by simp) ?_ h
        simp [State.alarmsOut, releaseDeparted, ho, State.setTransmitter, State.setPort, State.port, Holding.alarmIdentity, State.countPort]
        have : s.portU.transmitter = some hd := htx
        simp [this, ho]
    · refine .of_view (s := s) ?_ h
      have e1 : ∀ y, faultView (releaseDeparted .d hd y) = faultView y := by
        intro y; unfold releaseDeparted; dsimp only; cases hd.origin <;> rfl
      have e2 : ∀ y, faultView (departedD hd y) = faultView y := by
        intro y; unfold departedD; split <;> simp [faultView]
      exact (e2 _).trans ((e1 _).trans rfl)

/-- R125 to R130: `timeBase` keeps the fault list sound. -/
theorem timeBase_faults (s : State) (h : s.FaultsListed) : (timeBaseExpired s).FaultsListed := by
  have H : ({ s with tally.haulwatch := s.tally.haulwatch.tick, tally.cutwait := s.tally.cutwait.tick } : State).FaultsListed := h
  unfold timeBaseExpired handExpiries
  repeat' split
  · exact H
  · exact raise_faults _ _ _ _ _ H
  · exact cutwaitExpired_faults _ H
  · exact cutwaitExpired_faults _ (raise_faults _ _ _ _ _ H)
  · exact raise_faults _ _ _ _ _ (cutwaitExpired_faults _ H)

/-- R125 to R130: `mreqReceived` keeps the fault list sound. -/
theorem mreqReceived_faults (p a b) (s : State) (h : s.FaultsListed) : (mreqReceived p a b s).FaultsListed := by
  unfold mreqReceived
  exact withSlot_ind _ _ _ (.of_view (s := s) (by simp [faultView]) h) fun _ => endArrival_faults _
    (handMreq_faults _ _ (.of_view (s := s) (by simp [faultView]) h))
end Sys2Proof.Machine
end

