-- ==== Sys2Proof/Laws/HaulBalance.lean ====
section
/-! SUPPORT. The haul balance (R19, R86) through every operation. -/

namespace Sys2Proof.Machine

/-- R102: a LABEL changes no coil length. -/
@[simp] theorem labelOldest_lengths (q : List CoilRecord) :
    (labelOldest q).map CoilRecord.length = q.map CoilRecord.length := by
  induction q with
  | nil => rfl
  | cons r rest ih => unfold labelOldest; split <;> simp [ih]

/-- R104: the lengths of the coils without the one removed. -/
theorem sum_removeCoil (n : Nat) (q : List CoilRecord) (r : CoilRecord)
    (h : q.find? (fun r => r.number = n) = some r) :
    (q.map CoilRecord.length).sum = ((removeCoil n q).map CoilRecord.length).sum + r.length := by
  induction q with
  | nil => simp at h
  | cons a rest ih =>
    unfold removeCoil
    simp only [List.find?_cons] at h
    split
    · rename_i hn; simp [hn] at h; subst h; simp; omega
    · rename_i hn; simp [hn] at h; have := ih (by simpa using h); simp; omega

/-- what HaulBalanced reads -/
def balView (s : State) := (s.tally.haulTotal, s.tally.packedTotal, s.coil.queue.map CoilRecord.length,
  s.coil.openCoil.start, s.coil.openCoil.length)

/-- R19, R86: states that agree on what is read keep the haul balance. -/
theorem State.HaulBalanced.of_view {s t : State} (h : balView t = balView s) (hs : s.HaulBalanced) :
    t.HaulBalanced := by
  simp [balView] at h
  obtain ⟨h1, h2, h3, h4, h5⟩ := h
  simpa [State.HaulBalanced, State.unpackedLength, h1, h2, h3, h4, h5] using hs

/-- R102: a LABEL changes no coil length. -/
@[simp] theorem sendLabel_lengths (s : State) : (sendLabel s).coil.queue.map CoilRecord.length = s.coil.queue.map
    CoilRecord.length := by
  simp [sendLabel]

/-- R103: a served TAKE changes no coil length. -/
@[simp] theorem servePending_lengths (s : State) : (servePending s).coil.queue.map CoilRecord.length =
    s.coil.queue.map CoilRecord.length := by
  unfold servePending; split <;> simp

/-- R102: a TAKE changes no coil length. -/
@[simp] theorem takeReceived_lengths (s : State) : (takeReceived s).coil.queue.map CoilRecord.length =
    s.coil.queue.map CoilRecord.length := by
  unfold takeReceived; repeat' split
  all_goals simp

/-- R96: an IQD departure changes no coil length. -/
@[simp] theorem iqdDeparted_lengths (s : State) : (iqdDeparted s).coil.queue.map CoilRecord.length = s.coil.queue.map
    CoilRecord.length := by
  unfold iqdDeparted; split <;> simp

/-- R19, R86: `packedNamed` keeps the haul balance. -/
theorem packedNamed_bal (src n) (s : State) (h : s.HaulBalanced) : (packedNamed src n s).HaulBalanced := by
  unfold packedNamed
  split
  · exact .of_view (by simp [balView]) h
  · rename_i r hr
    split
    · have hn : r.number = n := by simpa using List.find?_some hr
      have := sum_removeCoil n _ _ hr
      subst hn
      simp [packOldest, State.HaulBalanced, State.unpackedLength] at h ⊢
      omega
    · exact .of_view (by simp [balView]) h

/-- R19, R86: `packedReceived` keeps the haul balance. -/
theorem packedReceived_bal (src p) (s : State) (h : s.HaulBalanced) : (packedReceived src p s).HaulBalanced := by
  unfold packedReceived; split
  · exact .of_view (by simp [balView]) h
  · exact packedNamed_bal _ _ _ h

/-- R19, R86: `haulForward` keeps the haul balance. -/
theorem haulForward_bal (n) (s : State) (h : s.HaulBalanced) : (haulForward n s).HaulBalanced := by
  unfold haulForward
  dsimp only
  split
  · exact .of_view (by simp [balView]) h
  · simp [State.HaulBalanced, State.unpackedLength, addLength, haulLimit] at h ⊢
    omega

/-- R19, R86: `haulBack` keeps the haul balance. -/
theorem haulBack_bal (n) (s : State) (h : s.HaulBalanced) : (haulBack n s).HaulBalanced := by
  simp [State.HaulBalanced, State.unpackedLength, haulBack] at h ⊢
  omega

/-- R19, R86: `haulReceived` keeps the haul balance. -/
theorem haulReceived_bal (p) (s : State) (h : s.HaulBalanced) : (haulReceived p s).HaulBalanced := by
  unfold haulReceived applyIncrement
  dsimp only
  repeat' split
  all_goals first
    | (refine State.HaulBalanced.of_view ?_ h; simp [balView]; done)
    | (apply haulForward_bal; refine State.HaulBalanced.of_view ?_ h; simp [balView])
    | (apply haulBack_bal; refine State.HaulBalanced.of_view ?_ h; simp [balView])

/-- R19, R86: `closeAndOpen` keeps the haul balance. -/
theorem closeAndOpen_bal (a) (s : State) (h : s.HaulBalanced) : (closeAndOpen a s).HaulBalanced := by
  have : ∀ k (_ : Nat), (closeOpenCoil (s.coil.openCoil.length - min a s.coil.openCoil.length) s).tally.haulTotal = s.tally.haulTotal →
      (openNewCoil (min a s.coil.openCoil.length) k (closeOpenCoil (s.coil.openCoil.length - min a s.coil.openCoil.length) s)).HaulBalanced := by
    intro k _ _
    simp [State.HaulBalanced, State.unpackedLength, openNewCoil, makeOpenCoil, newCoil, closeOpenCoil, CoilRecord.close] at h ⊢
    omega
  unfold closeAndOpen
  dsimp only
  split
  · refine State.HaulBalanced.of_view ?_ (this (movedDefects (s.coil.openCoil.length - min a s.coil.openCoil.length) s.coil.openCoil.defects) 0 (by simp)); simp [balView]
  · exact this _ 0 (by simp)

/-- R19, R86: `cutdoneReceived` keeps the haul balance. -/
theorem cutdoneReceived_bal (p) (s : State) (h : s.HaulBalanced) : (cutdoneReceived p s).HaulBalanced := by
  unfold cutdoneReceived
  repeat' split
  · exact .of_view (by simp [balView]) h
  · exact closeAndOpen_bal _ _ h
  · exact .of_view (by simp [balView]) h

/-- R19, R86: `tap` keeps the haul balance. -/
theorem tap_bal (r f) (s : State) (h : s.HaulBalanced) : (tap r f s).HaulBalanced := by
  unfold tap; split
  · exact .of_view (by simp [balView]) h
  · exact haulReceived_bal _ _ h
  · exact .of_view (by simp [balView]) h
  · exact h

/-- R19, R86: `forOwn` keeps the haul balance. -/
theorem forOwn_bal (p r f) (s : State) (h : s.HaulBalanced) : (forOwn p r f s).HaulBalanced :=
  have h' : (countConsumed s).HaulBalanced := .of_view (s := s) (by simp [balView]) h
  forOwn_cases (.of_view (s := s) (by simp [balView]) h) (.of_view (s := s) (by simp [balView]) h)
    (.of_view (s := s) (by simp [balView]) h) (.of_view (s := s) (by simp [balView]) h)
    (cutdoneReceived_bal _ _ h') (.of_view (s := s) (by simp [balView]) h) (packedReceived_bal _ _ _ h')

/-- R19, R86: `classify` keeps the haul balance. -/
theorem classify_bal (p f) (s : State) (h : s.HaulBalanced) : (classify p f s).HaulBalanced :=
  classify_cases (.of_view (s := s) (by simp [balView]) h) (.of_view (s := s) (by simp [balView]) h)
    (.of_view (s := s) (by simp [balView]) h) (forOwn_bal _ _ _ _ h)
    (.of_view (by simp [balView]) (tap_bal (s.stationOf f.src) f s h))

/-- R19, R86: `arrive` keeps the haul balance. -/
theorem arrive_bal (p f) (s : State) (h : s.HaulBalanced) : (arrive p f s).HaulBalanced :=
  classify_bal _ _ _ (.of_view (by simp [balView]) h)

/-- R19, R86: `endArrival` keeps the haul balance. -/
theorem endArrival_bal (s : State) (h : s.HaulBalanced) : (endArrival s).HaulBalanced
    := .of_view (by simp [balView]) h

/-- R19, R86: `frameComplete` keeps the haul balance. -/
theorem frameComplete_bal (p l) (s : State) (h : s.HaulBalanced) : (frameComplete p l s).HaulBalanced := by
  unfold frameComplete; dsimp only; split
  · exact endArrival_bal _ (arrive_bal _ _ _ (.of_view (by simp [balView]) h))
  · refine State.HaulBalanced.of_view ?_ h; simp [balView]

/-- R19, R86: `characterReceived` keeps the haul balance. -/
theorem characterReceived_bal (p c) (s : State) (h : s.HaulBalanced) : (characterReceived p c s).HaulBalanced := by
  unfold characterReceived goodReceived fillReceived storeCharacter
  repeat' split
  all_goals first
    | exact frameComplete_bal _ _ _ h
    | (refine State.HaulBalanced.of_view ?_ h; simp [balView]; done)

/-- R19, R86: `finishU` keeps the haul balance. -/
theorem finishU_bal (h') (s : State) (h : s.HaulBalanced) : (finishU h' s).HaulBalanced := by
  unfold finishU; split
  · simp [resetRequestEffect, pinResetState, powerUpState, Tally.afterResetRequest, CoilJob.afterResetRequest, CoilRecord.afterResetRequest,
      State.HaulBalanced, State.unpackedLength] at h ⊢
    omega
  all_goals (refine State.HaulBalanced.of_view ?_ h; simp [balView])

/-- R19, R86: `departedD` keeps the haul balance. -/
theorem departedD_bal (h') (s : State) (h : s.HaulBalanced) : (departedD h' s).HaulBalanced := by
  unfold departedD; split <;> (refine State.HaulBalanced.of_view ?_ h; simp [balView])

/-- R19, R86: `emptyStage` keeps the haul balance. -/
theorem emptyStage_bal (p) (s : State) (h : s.HaulBalanced) :
    (emptyStage p s).HaulBalanced := .of_view (by simp [balView]) h

/-- R19, R86: `departure` keeps the haul balance. -/
theorem departure_bal (p) (s : State) (h : s.HaulBalanced) : (departure p s).HaulBalanced := by
  unfold departure departs; split
  · exact h
  · dsimp only; split
    · apply emptyStage_bal; apply departedD_bal; refine State.HaulBalanced.of_view ?_ h; simp [balView]
    · refine finishU_bal _ _ (State.HaulBalanced.of_view ?_ h); simp [balView]

/-- R19: a cleared tally with cleared coils is balanced. -/
theorem HaulBalanced_init (s : State) (h1 : s.tally = Tally.cleared) (h2 : s.coil = CoilJob.cleared) :
    s.HaulBalanced := by
  simp [State.HaulBalanced, State.unpackedLength, h1, h2, Tally.cleared, CoilJob.cleared, CoilRecord.first]

end Sys2Proof.Machine
end

