-- ==== Sys2Proof/Laws/HeadBreaks.lean ====
section
/-! SUPPORT. The BROKEN heads (R39, R123) through every operation. -/

namespace Sys2Proof.Machine

/-- What the agreement of heads and mode reads of a state. -/
def headView (s : State) := (s.tables.faultClass .strandBreak, s.lay.heads, s.mode)

/-- R39, R123: states that agree on what is read keep that a BROKEN head has halted the line. -/
theorem State.BreakHalts.of_view {s t : State} (h : headView t = headView s) (hs : s.BreakHalts) : t.BreakHalts := by
  simp [headView] at h
  obtain ⟨h1, h2, h3⟩ := h
  simpa [State.BreakHalts, State.head, h1, h2, h3] using hs

/-- heads kept, mode may change only if no broken -/
theorem State.BreakHalts.mode {s t : State} (ht : t.tables.faultClass .strandBreak = s.tables.faultClass
    .strandBreak) (hl : t.lay.heads = s.lay.heads)
    (hm : s.mode = .halted ∨ s.mode = .parked → t.mode = .halted ∨ t.mode = .parked) (hs : s.BreakHalts) : t.BreakHalts := by
  obtain ⟨a, b, c, d⟩ := hs
  have hh : ∀ u, t.head u = s.head u := fun u => by simp only [State.head, hl]
  exact ⟨ht ▸ a, hl ▸ b, fun u hu => hm (c u (hh u ▸ hu)), fun u v hu hv => d u v (hh u ▸ hu) (hh v ▸ hv)⟩

/-- R38: there are 24 heads after all are rewritten. -/
theorem mapHeads_heads_length (f) (s : State) : (mapHeads f s).lay.heads.length = 24 := by simp [mapHeads, allUnits]

/-- R39, R123: `mapHeads` keeps that a BROKEN head has halted the line. -/
theorem mapHeads_breaks (f) (s : State) (hf : ∀ u h, (f u h).state = .broken → h.state = .broken) (h :
    s.BreakHalts) : (mapHeads f s).BreakHalts := by
  obtain ⟨a, b, c, d⟩ := h
  refine ⟨a, mapHeads_heads_length _ _, fun u hu => ?_, fun u v hu hv => ?_⟩
  · rw [mapHeads_head] at hu; simpa using c u (hf _ _ hu)
  · rw [mapHeads_head] at hu hv; exact d u v (hf _ _ hu) (hf _ _ hv)

/-- R39: where no rewritten head is BROKEN the line may run. -/
theorem mapHeads_none (f) (s : State) (hf : ∀ u h, (f u h).state ≠ .broken) (h :
    s.tables.faultClass .strandBreak = .halt) : (mapHeads f s).BreakHalts :=
  ⟨h, mapHeads_heads_length _ _, fun u hu => absurd (by rwa [mapHeads_head] at hu) (hf _ _), fun u _ hu _ => absurd (by rwa [mapHeads_head] at hu) (hf _ _)⟩

/-- R13: after a HALT request the line is HALTED or PARKED. -/
theorem haltRequest_mode (s : State) : (haltRequest s).mode = .halted ∨ (haltRequest s).mode = .parked := by
  unfold haltRequest; split <;> simp_all

/-- R12, R13: a mode request leaves a stopped line stopped. -/
theorem modeRequest_stopped (c) (s : State) (h : s.mode = .halted ∨ s.mode = .parked) :
    (modeRequest c s).mode = .halted ∨ (modeRequest c s).mode = .parked := by
  cases c <;> simp [modeRequest, h, haltRequest_mode]
  unfold creepRequest; split <;> simp_all

/-- R124: an occurrence leaves a stopped line stopped. -/
theorem handle_stopped (o) (s : State) (h : s.mode = .halted ∨ s.mode = .parked) : (handle o s).mode = .halted ∨
    (handle o s).mode = .parked := by
  unfold handle; dsimp only; split
  · simpa using h
  · apply modeRequest_stopped; simpa using h

/-- R39, R123: `handle` keeps that a BROKEN head has halted the line. -/
theorem handle_breaks (o) (s : State) (h : s.BreakHalts) : (handle o s).BreakHalts
    := .mode (by simp) (by simp) (handle_stopped o s) h

/-- R39, R123: `raise` keeps that a BROKEN head has halted the line. -/
theorem raise_breaks (k a b c) (s : State) (h : s.BreakHalts) : (raise k a b c s).BreakHalts := handle_breaks _ _ h

/-- R39, R123: `handleAll` keeps that a BROKEN head has halted the line. -/
theorem handleAll_breaks (l) (s : State) (h : s.BreakHalts) : (handleAll l s).BreakHalts := by
  unfold handleAll
  induction l generalizing s with
  | nil => exact h
  | cons o r ih => exact ih _ (handle_breaks _ _ h)

/-- R39, R123: `creepExit` keeps that a BROKEN head has halted the line. -/
theorem creepExit_breaks (s : State) (h : s.BreakHalts) : (creepExit s).BreakHalts := by
  refine .mode (by simp) (by simp) ?_ h
  unfold creepExit; split <;> simp_all

/-- R39, R123: `examineOverlength` keeps that a BROKEN head has halted the line. -/
theorem examineOverlength_breaks (s : State) (h : s.BreakHalts) : (examineOverlength s).BreakHalts := by
  unfold examineOverlength; split
  · exact raise_breaks _ _ _ _ _ h
  · exact h

/-- R39, R123: `cutRequest` keeps that a BROKEN head has halted the line. -/
theorem cutRequest_breaks (s : State) (h : s.BreakHalts) : (cutRequest s).BreakHalts := by
  unfold cutRequest; split
  · exact raise_breaks _ _ _ _ _ (.of_view (s := s) (by simp [headView]) h)
  · exact .of_view (s := s) (by simp [headView]) h

/-- R39, R123: `coilUnderflowed` keeps that a BROKEN head has halted the line. -/
theorem coilUnderflowed_breaks (l) (s : State) (h : s.BreakHalts) : (coilUnderflowed l s).BreakHalts := by
  unfold coilUnderflowed; split
  · exact cutRequest_breaks _ h
  · exact h

/-- R39, R123: `handImmediate` keeps that a BROKEN head has halted the line. -/
theorem handImmediate_breaks (s : State) (h : s.BreakHalts) : (handImmediate s).BreakHalts := by
  unfold handImmediate; split
  · exact coilUnderflowed_breaks _ _ h
  · exact h

/-- R39, R123: `manualCut` keeps that a BROKEN head has halted the line. -/
theorem manualCut_breaks (s : State) (h : s.BreakHalts) : (manualCut s).BreakHalts := cutRequest_breaks _ h

/-- R39, R123: `roomMade` keeps that a BROKEN head has halted the line. -/
theorem roomMade_breaks (s : State) (h : s.BreakHalts) : (roomMade s).BreakHalts := by
  unfold roomMade; split
  · exact creepExit_breaks _ (.of_view (s := s) (by simp [headView]) h)
  · exact h

/-- R39, R123: `packedReceived` keeps that a BROKEN head has halted the line. -/
theorem packedReceived_breaks (a b) (s : State) (h : s.BreakHalts) : (packedReceived a b s).BreakHalts := by
  unfold packedReceived packedNamed packOldest; repeat' split
  · exact h
  · exact .of_view (s := s) (by simp [headView]) h
  · exact roomMade_breaks _ h
  · exact raise_breaks _ _ _ _ _ (.of_view (s := s) (by simp [headView]) h)

/-- R39, R123: `addLength` keeps that a BROKEN head has halted the line. -/
theorem addLength_breaks (n) (s : State) (h : s.BreakHalts) :
    (addLength n s).BreakHalts := examineOverlength_breaks _ h

/-- R39, R123: `cutwaitExpired` keeps that a BROKEN head has halted the line. -/
theorem cutwaitExpired_breaks (s : State) (h : s.BreakHalts) : (cutwaitExpired s).BreakHalts :=
  raise_breaks _ _ _ _ _ (examineOverlength_breaks _ h)

/-- The head of a unit after one head is put. -/
theorem head_setHead (u v : HeadUnit) (h) (s : State) (hl : s.lay.heads.length = 24) :
    (setHead u h s).head v = if v = u then h else s.head v := by
  simp only [State.head, setHead, List.getD_eq_getElem?_getD, List.getElem?_set, hl, u.isLt, if_true]
  by_cases hv : v = u
  · simp [hv]
  · simp [hv, Fin.val_ne_of_ne (Ne.symm hv)]

/-- R42: where a report is taken no head is BROKEN. -/
theorem takesTurns_notBroken (u) (s : State) (h : s.BreakHalts) (ht : s.takesTurns u = true) : ∀ v,
    (s.head v).state ≠ .broken := by
  intro v hv
  simp [State.takesTurns, Mode.supervises] at ht
  rcases h.2.2.1 v hv with hm | hm <;> simp [hm] at ht

/-- R44: a report leaves the state or makes it BROKEN. -/
theorem afterReport_state (h : HeadRecord) (p tw te st) : (h.afterReport p tw te st).state = .broken ∨
    (h.afterReport p tw te st).state = h.state := by
  unfold HeadRecord.afterReport; dsimp only; repeat' split
  all_goals simp [HeadRecord.accumulate]

/-- R39, R123: `takeTurns` keeps that a BROKEN head has halted the line. -/
theorem takeTurns_breaks (u a b c) (s : State) (h : s.BreakHalts) (hn : ∀ v, (s.head v).state ≠ .broken) :
    (takeTurns u a b c s).BreakHalts := by
  obtain ⟨h1, h2, h3, h4⟩ := h
  unfold takeTurns; dsimp only; split
  · have hm : (raise .strandBreak (some u.val) 1 0 (setHead u ((s.head u).afterReport s.product a b c) s)).mode = .halted ∨ 
       (raise .strandBreak (some u.val) 1 0 (setHead u ((s.head u).afterReport s.product a b c) s)).mode = .parked := by
      unfold raise handle; dsimp only; rw [if_neg]
      · simp [occurrence, h1, modeRequest, haltRequest_mode]
      · simp [occurrence, h1]
    have hh : ∀ v, (raise .strandBreak (some u.val) 1 0 (setHead u ((s.head u).afterReport s.product a b c) s)).head v = 
        (setHead u ((s.head u).afterReport s.product a b c) s).head v := by intro v; simp [State.head]
    refine ⟨by simpa using h1, by simpa [setHead] using h2, fun _ _ => hm, fun v w hv hw => ?_⟩
    rw [hh, head_setHead _ _ _ _ h2] at hv hw
    split at hv
    · split at hw
      · simp_all
      · exact absurd hw (hn w)
    · exact absurd hv (hn v)
  · rename_i hb
    have : ∀ v, ((setHead u ((s.head u).afterReport s.product a b c) s).head v).state ≠ .broken := by
      intro v; rw [head_setHead _ _ _ _ h2]; split
      · exact hb
      · exact hn v
    exact ⟨h1, by simpa [setHead] using h2, fun v hv => absurd hv (this v), fun v _ hv _ => absurd hv (this v)⟩

/-- R39, R123: `turnsReceived` keeps that a BROKEN head has halted the line. -/
theorem turnsReceived_breaks (u p) (s : State) (h : s.BreakHalts) : (turnsReceived u p s).BreakHalts := by
  unfold turnsReceived; repeat' split
  · exact h
  · exact takeTurns_breaks _ _ _ _ _ h (takesTurns_notBroken u s h ‹_›)
  · exact h

/-- R53: a restarted head is not BROKEN. -/
theorem restartBy_state (h : HeadRecord) (b) : (h.restartBy b).state ≠ .broken := by
  unfold HeadRecord.restartBy HeadRecord.restart; cases b <;> simp

/-- R55: a product start breaks no head. -/
theorem productStart_state (h : HeadRecord) (b) : (h.productStart b).state = .broken → h.state = .broken := by
  unfold HeadRecord.productStart; dsimp only; split
  · exact id
  · intro hh; exact absurd hh (restartBy_state h b)

/-- R46: a window end breaks no head. -/
theorem judgement_state (s : State) (w u) : (s.judgement w u).head.state = .broken → (s.head u).state = .broken := by
  unfold State.judgement judgeHead judgeReporting measureHead; dsimp only; repeat' split
  all_goals simp_all

/-- R39, R123: `windowEnded` keeps that a BROKEN head has halted the line. -/
theorem windowEnded_breaks (w) (s : State) (h : s.BreakHalts) : (windowEnded w s).BreakHalts := by
  unfold windowEnded; split
  · apply handleAll_breaks
    obtain ⟨a, b, c, d⟩ := h
    have H : ∀ u, ((mapHeads (fun u _ => (s.judgement w u).head.clearWindow) s).head u).state = .broken → (s.head u).state = .broken := by
      intro u hu; rw [mapHeads_head] at hu; exact judgement_state s w u hu
    exact ⟨a, mapHeads_heads_length (fun u _ => (s.judgement w u).head.clearWindow) s, fun u hu => c u (H u hu), fun u v hu hv => d u v (H u hu) (H v hv)⟩
  · exact mapHeads_breaks _ s (fun _ _ h => h) h

/-- R39, R123: `productStartHeads` keeps that a BROKEN head has halted the line. -/
theorem productStartHeads_breaks (s : State) (h : s.BreakHalts) : (productStartHeads s).BreakHalts :=
  mapHeads_breaks _ _ (fun _ _ => productStart_state _ _) h

/-- R39, R123: `clearDriftWindows` keeps that a BROKEN head has halted the line. -/
theorem clearDriftWindows_breaks (s : State) (h : s.BreakHalts) :
    (clearDriftWindows s).BreakHalts := mapHeads_breaks _ s (fun _ _ h => h) h

/-- R39, R123: `rowdoneReceived` keeps that a BROKEN head has halted the line. -/
theorem rowdoneReceived_breaks (p) (s : State) (h : s.BreakHalts) : (rowdoneReceived p s).BreakHalts := by
  unfold rowdoneReceived rowReported processRow; repeat' split
  · exact h
  · dsimp only; split
    · exact h
    · exact handleAll_breaks _ _ (.of_view (s := s) (by simp [headView]) h)
  · exact h

/-- R39, R123: `giveCoil` keeps that a BROKEN head has halted the line. -/
theorem giveCoil_breaks (n) (s : State) (h : s.BreakHalts) : (giveCoil n s).BreakHalts := by
  unfold giveCoil; dsimp only; repeat' split
  · exact coilUnderflowed_breaks _ _ h
  · exact h
  · exact h

/-- R39, R123: `giveMark` keeps that a BROKEN head has halted the line. -/
theorem giveMark_breaks (n) (s : State) (h : s.BreakHalts) :
    (giveMark n s).BreakHalts := .of_view (s := s) (by simp [headView]) h

/-- R39, R123: `giveWindow` keeps that a BROKEN head has halted the line. -/
theorem giveWindow_breaks (n) (s : State) (h : s.BreakHalts) : (giveWindow n s).BreakHalts := by
  unfold giveWindow; dsimp only; repeat' split
  · exact windowEnded_breaks _ _ h
  · exact h
  · exact h

/-- R39, R123: `haulReceived` keeps that a BROKEN head has halted the line. -/
theorem haulReceived_breaks (p) (s : State) (h : s.BreakHalts) : (haulReceived p s).BreakHalts := by
  unfold haulReceived; split
  · exact h
  · dsimp only
    have hh : ∀ i (s : State), s.BreakHalts → (haulHeard i s).BreakHalts := by
      intro i s h; unfold haulHeard; split <;> exact h
    have := hh (signedOf 2 (numberAt p 1 2)) { s with tally.haulTaken := bump s.tally.haulTaken } h
    unfold applyIncrement; repeat' split
    · exact this
    · unfold haulForward; dsimp only; split
      · exact .of_view (by simp [headView]) this
      · exact giveWindow_breaks _ _ (giveMark_breaks _ _ (giveCoil_breaks _ _ (addLength_breaks _ _ (.of_view (by simp [headView]) this))))
    · exact raise_breaks _ _ _ _ _ this
    · exact .of_view (by simp [headView]) this

/-- R39, R123: `loadCursor` keeps that a BROKEN head has halted the line. -/
theorem loadCursor_breaks (s : State) (h : s.BreakHalts) : (loadCursor s).BreakHalts
    := .of_view (s := s) (by simp [headView]) h

/-- R39, R123: `chooseProduct` keeps that a BROKEN head has halted the line. -/
theorem chooseProduct_breaks (s : State) (h : s.BreakHalts) : (chooseProduct s).BreakHalts := by
  unfold chooseProduct; repeat' split
  · exact h
  · unfold applyChangeover
    exact loadCursor_breaks _ (productStartHeads_breaks _ h)
  · exact h

/-- R39, R123: `openNewCoil` keeps that a BROKEN head has halted the line. -/
theorem openNewCoil_breaks (a b) (s : State) (h : s.BreakHalts) : (openNewCoil a b s).BreakHalts := by
  unfold openNewCoil presetAtOpen; apply handImmediate_breaks; apply examineOverlength_breaks; apply clearDriftWindows_breaks
  refine .of_view (s := chooseProduct (makeOpenCoil a s)) ?_ (chooseProduct_breaks _ h)
  split <;> simp [headView, placeDefects]

/-- R39, R123: `closeAndOpen` keeps that a BROKEN head has halted the line. -/
theorem closeAndOpen_breaks (a) (s : State) (h : s.BreakHalts) : (closeAndOpen a s).BreakHalts := by
  unfold closeAndOpen; dsimp only
  have := openNewCoil_breaks (min a s.coil.openCoil.length) (movedDefects (s.coil.openCoil.length - min a s.coil.openCoil.length) s.coil.openCoil.defects)
    (closeOpenCoil (s.coil.openCoil.length - min a s.coil.openCoil.length) s) (.of_view (s := s) (by simp [headView]) h)
  split
  · exact raise_breaks _ _ _ _ _ this
  · exact this

/-- R39, R123: `cutdoneReceived` keeps that a BROKEN head has halted the line. -/
theorem cutdoneReceived_breaks (p) (s : State) (h : s.BreakHalts) : (cutdoneReceived p s).BreakHalts := by
  unfold cutdoneReceived; repeat' split
  · exact h
  · exact closeAndOpen_breaks _ _ h
  · exact raise_breaks _ _ _ _ _ h

/-- R39, R123: `productStart` keeps that a BROKEN head has halted the line. -/
theorem productStart_breaks (a) (s : State) (h : s.BreakHalts) : (productStart a s).BreakHalts := by
  unfold productStart; apply handImmediate_breaks
  refine .of_view (s := loadCursor _) ?_ (loadCursor_breaks _ (productStartHeads_breaks (setOpenProduct { s with coil.current := a }) h))
  simp [headView]

/-- R39, R123: `enterThreading` keeps that a BROKEN head has halted the line. -/
theorem enterThreading_breaks (s : State) (h : s.BreakHalts) : (enterThreading s).BreakHalts := by
  have H : (enterThreadingMesh (enterThreadingHeads { s with mode := .threading })).BreakHalts :=
    .of_view (s := enterThreadingHeads { s with mode := .threading }) (by simp [headView])
      (mapHeads_none _ _ (fun _ _ => restartBy_state _ _) h.1)
  unfold enterThreading; dsimp only; split
  · exact H
  · exact handImmediate_breaks _ (.of_view (by simp [headView]) H)

/-- R39, R123: `releaseLine` keeps that a BROKEN head has halted the line. -/
theorem releaseLine_breaks (s : State) (h : s.BreakHalts) : (releaseLine s).BreakHalts := by
  unfold releaseLine
  refine .of_view (s := releaseHeads { s with mode := .threading }) (by simp [headView]) (mapHeads_none _ _ (fun u h' => ?_) h.1)
  split
  · exact restartBy_state _ _
  · assumption

/-- R39, R123: `setModeRequest` keeps that a BROKEN head has halted the line. -/
theorem setModeRequest_breaks (a) (s : State) (h : s.BreakHalts) : (setModeRequest a s).1.BreakHalts := by
  unfold setModeRequest setModeParked setModeThreading setModeRun tryThreading
  repeat' split
  all_goals first
    | exact h
    | exact enterThreading_breaks _ h
    | (refine State.BreakHalts.mode (s := s) rfl rfl ?_ h; simp_all [enterParked, enterRun, returnToThreading, presetHaulwatch, stopHaulwatch])

/-- R123: a written row 1 stays HALT. -/
theorem setFields_class (row) (c d : FaultClass) (pairs) (hr : row = 1) (h : c = .halt) (hd : setFields
    (setClassField row) pairs c = some d) : d = .halt := by
  induction pairs generalizing c with
  | nil => simp [setFields] at hd; simp_all
  | cons p rest ih =>
    simp only [setFields, Option.bind_eq_some_iff] at hd
    obtain ⟨e, he, _⟩ := hd
    unfold setClassField at he; split at he <;> simp_all

/-- R123: no write takes HALT from STRAND_BREAK. -/
theorem writeRow_strandBreak (t : Tables) (n : TableName) (row) (pairs) (t' : Tables) (hrow : n.hasRow row = true)
    (h : t.faultClass .strandBreak = .halt) (ht : t.writeRow n row pairs = some t') : t'.faultClass .strandBreak = .halt := by
  unfold Tables.writeRow at ht
  cases n <;> simp only [Option.map_eq_some_iff] at ht <;> obtain ⟨x, hx, rfl⟩ := ht <;> try exact h
  simp only [TableName.hasRow, Bool.and_eq_true, decide_eq_true_eq] at hrow
  unfold Tables.faultClass FaultKind.number at h ⊢
  by_cases h1 : row = 1
  · subst h1
    simp at h ⊢
    have := setFields_class 1 _ _ _ rfl (by simpa using h) hx
    rw [List.getElem?_set]; split
    · split <;> simp_all
    · simp_all
  · simp at h ⊢; rw [List.getElem?_set_ne (by omega)]; exact h

/-- R39, R123: `writeFields` keeps that a BROKEN head has halted the line. -/
theorem writeFields_breaks (a b c) (s : State) (h : s.BreakHalts) : (writeFieldsRequest a b c s).1.BreakHalts := by
  unfold writeFieldsRequest; repeat' split
  all_goals first
    | exact h
    | skip
  · rename_i hrow _ _ _ t ht _
    refine .mode (s := s) ?_ rfl (fun h => h) h
    have := writeRow_strandBreak _ _ _ _ _ hrow h.1 ht
    dsimp only
    simp [this, h.1]
  · rename_i hrow _ _ _ t ht _
    exact .mode (s := s) (by simpa [h.1] using writeRow_strandBreak _ _ _ _ _ hrow h.1 ht) rfl (fun h => h) h

/-- R39, R123: `carryOut` keeps that a BROKEN head has halted the line. -/
theorem carryOut_breaks (r) (s : State) (h : s.BreakHalts) : (carryOut r s).1.BreakHalts := by
  cases r with
  | readRow => exact h
  | writeFields t row pairs => exact writeFields_breaks _ _ _ _ h
  | setMode m => exact setModeRequest_breaks _ _ h
  | setProduct =>
    simp only [carryOut, setProductRequest]; repeat' split
    all_goals first | exact h | exact productStart_breaks _ _ h
  | setNext => exact .of_view (s := s) (by simp [headView, carryOut]) h
  | release =>
    simp only [carryOut, releaseRequest]; repeat' split
    · exact h
    · exact h
    · exact releaseLine_breaks _ h
  | cut =>
    simp only [carryOut, cutManually]; split
    · exact manualCut_breaks _ h
    · exact h
  | clearFault =>
    simp only [carryOut, clearFaultRequest]; split
    · exact h
    · split
      · exact creepExit_breaks _ h
      · exact h
  | clearAll => exact creepExit_breaks _ h
  | readFaults => exact h
  | readCoil => exact h
  | readHead => exact h
  | readMesh => exact .of_view (s := s) (by simp [headView, carryOut]) h
  | readStatus => exact h
  | readCounters => exact h
  | clearCounters => exact h
  | setAddress => exact .of_view (s := s) (by simp [headView, carryOut]) h
  | reset => exact h

/-- R39, R123: `takeRequest` keeps that a BROKEN head has halted the line. -/
theorem takeRequest_breaks (f) (s : State) (h : s.BreakHalts) : (takeRequest f s).BreakHalts := by
  unfold takeRequest; refine .of_view (s := (perform f.payload (reserveEntry s)).1) (by simp [headView]) ?_
  unfold perform; repeat' split
  · exact h
  · exact carryOut_breaks _ _ h
  · exact h

/-- R39, R123: `handMreq` keeps that a BROKEN head has halted the line. -/
theorem handMreq_breaks (f) (s : State) (h : s.BreakHalts) : (handMreq f s).BreakHalts := by
  unfold handMreq; repeat' split
  · exact raise_breaks _ _ _ _ _ h
  · exact takeRequest_breaks _ _ h
  · exact h

/-- R39, R123: `takeHeld` keeps that a BROKEN head has halted the line. -/
theorem takeHeld_breaks (s : State) (h : s.BreakHalts) : (takeHeld s).BreakHalts := by
  unfold takeHeld; split
  · exact h
  · rename_i f _; exact .of_view (by simp [headView]) (takeRequest_breaks f _ h)

/-- R39, R123: `tap` keeps that a BROKEN head has halted the line. -/
theorem tap_breaks (r f) (s : State) (h : s.BreakHalts) : (tap r f s).BreakHalts := by
  unfold tap; split
  · exact turnsReceived_breaks _ _ _ h
  · exact haulReceived_breaks _ _ h
  · exact rowdoneReceived_breaks _ _ h
  · exact h

/-- R39, R123: `forOwn` keeps that a BROKEN head has halted the line. -/
theorem forOwn_breaks (p r f) (s : State) (h : s.BreakHalts) : (forOwn p r f s).BreakHalts :=
  have h' : (countConsumed s).BreakHalts := .of_view (s := s) (by simp [headView]) h
  forOwn_cases (.of_view (s := s) (by simp [headView]) h) (.of_view (s := s) (by simp [headView]) h)
    (raise_breaks _ _ _ _ _ h) (handMreq_breaks _ _ h') (cutdoneReceived_breaks _ _ h')
    (.of_view (s := s) (by simp [headView]) h) (packedReceived_breaks _ _ _ h')

/-- R39, R123: `classify` keeps that a BROKEN head has halted the line. -/
theorem classify_breaks (p f) (s : State) (h : s.BreakHalts) : (classify p f s).BreakHalts :=
  classify_cases (handMreq_breaks _ _ (.of_view (s := s) (by simp [headView]) h))
    (.of_view (s := s) (by simp [headView]) h) (raise_breaks _ _ _ _ _ h) (forOwn_breaks _ _ _ _ h)
    (.of_view (s := tap (s.stationOf f.src) f s) (by simp [headView]) (tap_breaks _ _ _ h))

/-- R39, R123: `arrive` keeps that a BROKEN head has halted the line. -/
theorem arrive_breaks (p f) (s : State) (h : s.BreakHalts) : (arrive p f s).BreakHalts :=
  classify_breaks _ _ _ (.of_view (by simp [headView]) h)

/-- R39, R123: `endArrival` keeps that a BROKEN head has halted the line. -/
theorem endArrival_breaks (s : State) (h : s.BreakHalts) : (endArrival s).BreakHalts
    := .of_view (by simp [headView]) h

/-- R39, R123: `characterReceived` keeps that a BROKEN head has halted the line. -/
theorem characterReceived_breaks (p c) (s : State) (h : s.BreakHalts) : (characterReceived p c s).BreakHalts := by
  unfold characterReceived goodReceived fillReceived storeCharacter frameComplete
  dsimp only
  repeat' split
  all_goals first
    | exact endArrival_breaks _ (arrive_breaks _ _ _ (.of_view (by simp [headView]) h))
    | (refine State.BreakHalts.of_view ?_ h; simp [headView])

/-- R39, R123: `emptyStage` keeps that a BROKEN head has halted the line. -/
theorem emptyStage_breaks (p) (s : State) (h : s.BreakHalts) :
    (emptyStage p s).BreakHalts := .of_view (by simp [headView]) h

/-- R39, R123: `sendAlarms` keeps that a BROKEN head has halted the line. -/
theorem sendAlarms_breaks (s : State) (h : s.BreakHalts) : (sendAlarms s).BreakHalts
    := .of_view (by simp [headView]) h

/-- R39, R123: a reset establishes that a BROKEN head has halted the line. -/
theorem breaks_init (s : State) (h1 : s.tables.faultClass .strandBreak = .halt) (h2 : s.lay = Lay.cleared) :
    s.BreakHalts := by
  have : ∀ u, (s.head u).state ≠ .broken := by
    intro u
    have : s.head u = HeadRecord.cleared := by
      rw [State.head, h2]; revert u; decide
    rw [this]; decide
  exact ⟨h1, by rw [h2]; rfl, fun u hu => absurd hu (this u), fun u _ hu _ => absurd hu (this u)⟩

/-- R39, R123: `departure` keeps that a BROKEN head has halted the line. -/
theorem departure_breaks (p) (s : State) (h : s.BreakHalts) : (departure p s).BreakHalts := by
  unfold departure departs; split
  · exact h
  · rename_i hd _
    have hrel : (releaseDeparted p hd (s.countPort p (fun c => { c with framesSent := bump c.framesSent }))).BreakHalts := .of_view (s := s) (by simp [headView]) h
    dsimp only; split
    · exact .of_view (s := releaseDeparted .d hd (s.countPort .d (fun c => { c with framesSent := bump c.framesSent }))) (by simp [headView]) hrel
    · unfold finishU; split
      · exact breaks_init _ hrel.1 rfl
      · exact emptyStage_breaks _ _ (sendAlarms_breaks _ (takeHeld_breaks _ (.of_view (by simp [headView]) hrel)))
      · exact emptyStage_breaks _ _ hrel
      · exact emptyStage_breaks _ _ hrel

/-- R39, R123: `timeBase` keeps that a BROKEN head has halted the line. -/
theorem timeBase_breaks (s : State) (h : s.BreakHalts) : (timeBaseExpired s).BreakHalts := by
  have H : ({ s with tally.haulwatch := s.tally.haulwatch.tick, tally.cutwait := s.tally.cutwait.tick } : State).BreakHalts := h
  unfold timeBaseExpired handExpiries
  repeat' split
  · exact H
  · exact raise_breaks _ _ _ _ _ H
  · exact cutwaitExpired_breaks _ H
  · exact cutwaitExpired_breaks _ (raise_breaks _ _ _ _ _ H)
  · exact raise_breaks _ _ _ _ _ (cutwaitExpired_breaks _ H)

/-- R39, R123: `mreqReceived` keeps that a BROKEN head has halted the line. -/
theorem mreqReceived_breaks (p a b) (s : State) (h : s.BreakHalts) : (mreqReceived p a b s).BreakHalts := by
  unfold mreqReceived
  exact withSlot_ind _ _ _ (.of_view (by simp [headView]) h) fun _ => endArrival_breaks _
    (handMreq_breaks _ _ (.of_view (s := s) (by simp [headView]) h))
end Sys2Proof.Machine
end

