-- ==== Sys2Proof/Laws/TableRanges.lean ====
section
/-! SUPPORT. The ranges of the loaded tables (R195) through a write (R196). -/

namespace Sys2Proof.Machine

/-- R196: what one field written keeps, all pairs written keep. -/
theorem setFields_ind {α : Type} {P : α → Prop} (sf : α → Nat → Nat → Option α)
    (h : ∀ a i v b, P a → sf a i v = some b → P b) (pairs : List (Byte × BitVec 32)) (a b : α)
    (ha : P a) (hb : setFields sf pairs a = some b) : P b := by
  induction pairs generalizing a with
  | nil => simp [setFields] at hb; exact hb ▸ ha
  | cons p rest ih =>
    simp only [setFields, Option.bind_eq_some_iff] at hb
    obtain ⟨c, hc, hr⟩ := hb
    exact ih c (h _ _ _ _ ha hc) hr

/-- R195: a value in range. -/
theorem inRange_some {lo hi v x : Nat} (h : inRange lo hi v = some x) : lo ≤ x ∧ x ≤ hi := by
  unfold inRange at h; split at h <;> simp_all

/-- R204: a widening in range. -/
theorem inWiden_some {v : Nat} {x : Int} (h : inWiden v = some x) : -2 ≤ x ∧ x ≤ 2 := by
  unfold inWiden at h; dsimp only at h; split at h <;> simp_all

/-- R195: a mark interval in range. -/
theorem inMark_some {v x : Nat} (h : inMarkInterval v = some x) : (x = 0 ∨ 100 ≤ x) ∧ x ≤ 65535 := by
  unfold inMarkInterval at h; split at h
  · simp_all; omega
  · have := inRange_some h; omega

/-- R195: a field of the line settings written keeps their ranges. -/
theorem line_setField (l : LineSettings) (i v) (m) (h : l.InRange) (hm : l.setField i v = some m) : m.InRange := by
  unfold LineSettings.setField at hm
  split at hm <;> simp only [Option.map_eq_some_iff, reduceCtorEq] at hm
  all_goals obtain ⟨x, hx, rfl⟩ := hm
  all_goals unfold LineSettings.InRange at h ⊢
  all_goals first
    | exact h
    | (have := inRange_some hx; simp only; omega)

/-- R195: a field of a product row written keeps its ranges. -/
theorem product_setField (l : ProductRow) (i v) (m) (h : l.InRange) (hm : l.setField i v = some m) : m.InRange := by
  unfold ProductRow.setField at hm
  split at hm <;> simp only [Option.map_eq_some_iff, reduceCtorEq] at hm
  all_goals obtain ⟨x, hx, rfl⟩ := hm
  all_goals unfold ProductRow.InRange at h ⊢
  all_goals first
    | exact h
    | (have := inRange_some hx; simp only; omega)
    | (have := inMark_some hx; simp only; omega)

/-- R195: a field of a lay row written keeps its ranges. -/
theorem lay_setField (l : LayRow) (i v) (m) (h : l.InRange) (hm : l.setField i v = some m) : m.InRange := by
  unfold LayRow.setField at hm
  split at hm <;> simp only [Option.map_eq_some_iff, reduceCtorEq] at hm
  all_goals obtain ⟨x, hx, rfl⟩ := hm
  all_goals unfold LayRow.InRange at h ⊢
  all_goals first
    | exact h
    | (have := inRange_some hx; simp only; omega)

/-- R195: a field of a step row written keeps its ranges. -/
theorem mesh_setField (l : MeshRow) (i v) (m) (h : l.InRange) (hm : l.setField i v = some m) : m.InRange := by
  unfold MeshRow.setField at hm
  split at hm <;> simp only [Option.map_eq_some_iff, reduceCtorEq] at hm
  all_goals obtain ⟨x, hx, rfl⟩ := hm
  all_goals unfold MeshRow.InRange at h ⊢
  all_goals first
    | exact h
    | (have := inRange_some hx; simp only; omega)
    | (have := inWiden_some hx; simp only; omega)

/-- R185: outside row 8 no written action is CLAMP. -/
theorem action_setField (row) (l : Action) (i v) (m) (_h : row ≠ 8 → l ≠ .clamp) (hm :
    setActionField row l i v = some m) :
    row ≠ 8 → m ≠ .clamp := by
  unfold setActionField at hm
  split at hm
  · simp only [Option.bind_eq_some_iff] at hm
    obtain ⟨x, _, hx⟩ := hm
    split at hx
    · simp at hx
    · rename_i hn; simp at hx; subst hx; intro h8 hc; exact hn ⟨hc, h8⟩
  · simp at hm

/-- R123: rows 1 and 15 stay HALT. -/
theorem class_setField (row) (l : FaultClass) (i v) (m) (hr : row = 1 ∨ row = 15) (_h : l = .halt)
    (hm : setClassField row l i v = some m) : m = .halt := by
  unfold setClassField at hm
  split at hm <;> simp_all

/-- A read of a list gives an entry or the default. -/
theorem getD_mem_or {α} (l : List α) (n) (d : α) : l.getD n d ∈ l ∨ l.getD n d = d := by
  rw [List.getD_eq_getElem?_getD]
  cases h : l[n]? with
  | none => simp
  | some a => simp; left; exact List.mem_of_getElem? h

/-- What holds of every entry and of the default holds of a read of the list. -/
theorem getD_of_forall {α} {P : α → Prop} {l : List α} {n} {d : α} (h : ∀ a ∈ l, P a) (hd : P d) :
    P (l.getD n d) := by
  rcases getD_mem_or l n d with hm | hm
  · exact h _ hm
  · rw [hm]; exact hd

/-- R195: the power-up product row is in range. -/
theorem product_powerUp : ProductRow.powerUp.InRange := by unfold ProductRow.InRange; decide

/-- R195: the power-up lay row is in range. -/
theorem lay_powerUp : LayRow.powerUp.InRange := by unfold LayRow.InRange; decide

/-- R195: the power-up step row is in range. -/
theorem mesh_powerUp : MeshRow.powerUp.InRange := by unfold MeshRow.InRange; decide

/-- What holds of every entry and of the one put holds after. -/
theorem forall_set {α} {P : α → Prop} {l : List α} {n} {x : α} (h : ∀ a ∈ l, P a) (hx : P x) :
    ∀ a ∈ l.set n x, P a := by
  intro a ha
  rcases List.mem_or_eq_of_mem_set ha with h' | h'
  · exact h a h'
  · exact h' ▸ hx

/-- R123, R195: a class written in a row of the class table leaves a kind at HALT where the row is another
kind's, or HALT is what is written. -/
theorem class_written {t : Tables} (k : FaultKind) (row : Nat) (x : FaultClass) (h1 : 1 ≤ row)
    (hx : row = k.number → x = .halt) (h : t.faultClass k = .halt) :
    ({ t with faultClasses := t.faultClasses.set (row - 1) x } : Tables).faultClass k = .halt := by
  unfold Tables.faultClass at h ⊢
  have hk : 1 ≤ k.number := by cases k <;> decide
  rw [List.getD_eq_getElem?_getD] at h ⊢
  by_cases e : row = k.number
  · have hn : k.number - 1 < t.faultClasses.length := by
      refine Classical.byContradiction fun hn => ?_
      rw [List.getElem?_eq_none (by omega)] at h
      cases h
    rw [e, hx e, List.getElem?_set_self hn]; rfl
  · rw [List.getElem?_set_ne (by omega)]; exact h

/-- R195, R196: a row written keeps the tables in range. -/
theorem writeRow_inRange (t : Tables) (n : TableName) (row) (pairs) (t' : Tables) (hrow : n.hasRow row = true) (h :
    t.InRange)
    (ht : t.writeRow n row pairs = some t') : t'.InRange := by
  unfold Tables.writeRow at ht
  cases n <;> simp only [Option.map_eq_some_iff] at ht <;> obtain ⟨x, hx, rfl⟩ := ht
  · exact { h with line := setFields_ind _ (fun a i v b => line_setField a i v b) _ _ _ h.line hx }
  · exact { h with stationCount := by simpa using h.stationCount }
  · refine { h with actionCount := by simpa using h.actionCount, clampAlone := fun i hi => ?_ }
    have written : row ≠ 8 → x ≠ .clamp := by
      refine setFields_ind (P := fun a => row ≠ 8 → a ≠ .clamp) _ (fun a i v b => action_setField row a i v b) _ _ _ ?_ hx
      intro h8
      have := h.clampAlone row h8
      rw [List.getD_eq_getElem?_getD]
      cases hh : t.actions[row]? <;> simp_all
    by_cases hir : i = row
    · subst hir
      rw [List.getElem?_set]
      simp; intro _; exact written hi
    · rw [List.getElem?_set_ne (Ne.symm hir)]; exact h.clampAlone i hi
  · refine { h with productCount := by simpa using h.productCount, products := forall_set h.products ?_ }
    refine setFields_ind _ (fun a i v b => product_setField a i v b) _ _ _ ?_ hx
    exact getD_of_forall h.products product_powerUp
  · refine { h with layCount := by simpa using h.layCount, lays := forall_set h.lays ?_ }
    refine setFields_ind _ (fun a i v b => lay_setField a i v b) _ _ _ ?_ hx
    exact getD_of_forall h.lays lay_powerUp
  · refine { h with meshCount := by simpa using h.meshCount, mesh := forall_set h.mesh ?_ }
    refine setFields_ind _ (fun a i v b => mesh_setField a i v b) _ _ _ ?_ hx
    exact getD_of_forall h.mesh mesh_powerUp
  · simp only [TableName.hasRow, Bool.and_eq_true, decide_eq_true_eq] at hrow
    refine { h with
      classCount := by simpa using h.classCount
      breakHalts := class_written .strandBreak row x hrow.1 (fun e => ?_) h.breakHalts
      overlengthHalts := class_written .coilOverlength row x hrow.1 (fun e => ?_) h.overlengthHalts }
    · exact setFields_ind (P := fun a => a = .halt) _ (fun a i v b => class_setField 1 a i v b (.inl rfl)) _ _ _
        h.breakHalts (e ▸ hx)
    · exact setFields_ind (P := fun a => a = .halt) _ (fun a i v b => class_setField 15 a i v b (.inr rfl)) _ _ _
        h.overlengthHalts (e ▸ hx)

/-- R195: the power-up tables are in range. -/
theorem powerUp_inRange : Tables.powerUp.InRange := by
  refine { line := by unfold LineSettings.InRange; decide, clampAlone := ?_, products := ?_, lays := ?_, mesh := ?_
           stationCount := rfl, actionCount := rfl, productCount := rfl, layCount := rfl, meshCount := rfl
           classCount := rfl, breakHalts := rfl, overlengthHalts := rfl }
  · intro i hi
    simp only [Tables.powerUp, defaultActions]
    rw [List.getElem?_set_ne (Ne.symm hi), List.getElem?_replicate]
    split <;> simp
  · intro p hp; rw [List.eq_of_mem_replicate hp]; exact product_powerUp
  · intro p hp; rw [List.eq_of_mem_replicate hp]; exact lay_powerUp
  · intro p hp; rw [List.eq_of_mem_replicate hp]; exact mesh_powerUp
end Sys2Proof.Machine
end

