-- ==== Sys2Proof/Laws/HoldOut.lean ====
section
/-! SUPPORT. The HOLD-OUT level (R152) through every operation. -/

namespace Sys2Proof.Machine

/-- R195: the hold threshold in range. -/
def Thr (s : State) : Prop := s.tables.line.holdThreshold ≤ 12

/-- R152: an operation that takes no slot keeps HOLD-OUT following. -/
theorem hof_of {s t : State} (h : s.HoldOutFollows) (g : StoreGrows s t) (ho : t.holdOut = s.holdOut) (ht :
    t.tables = s.tables) : t.HoldOutFollows := by
  refine ⟨g.arriving.trans h.1, ht ▸ h.2.1, ?_⟩
  rw [State.freeForwarding, g.heldForwarding, ho, ht]
  exact h.2.2

/-- R152: HOLD-OUT set anew follows. -/
theorem hof_set (s : State) (ha : s.store.arriving = false) (h : Thr s) : s.setHoldOut.HoldOutFollows := by
  refine ⟨ha, h, ?_⟩
  simp [State.setHoldOut, holdOutLevel, State.freeForwarding, State.heldForwarding]

/-- R152: states that agree on what is read keep that HOLD-OUT follows the free slots. -/
theorem Thr.of {s t : State} (h : Thr s) (e : t.tables = s.tables) : Thr t := by unfold Thr; rw [e]; exact h

/-- R195: `line` keeps the hold threshold in range. -/
theorem line_thr (l : LineSettings) (i v) (m) (h : l.holdThreshold ≤ 12) (hm : l.setField i v = some m) :
    m.holdThreshold ≤ 12 := by
  unfold LineSettings.setField at hm
  split at hm <;> simp only [Option.map_eq_some_iff, reduceCtorEq] at hm
  all_goals obtain ⟨x, hx, rfl⟩ := hm
  all_goals first
    | exact h
    | (have := inRange_some hx; simp only; omega)

/-- R195: `writeRow` keeps the hold threshold in range. -/
theorem writeRow_thr (t : Tables) (n row pairs) (t' : Tables) (h : t.line.holdThreshold ≤ 12) (ht :
    t.writeRow n row pairs = some t') : t'.line.holdThreshold ≤ 12 := by
  unfold Tables.writeRow at ht
  cases n <;> simp only [Option.map_eq_some_iff] at ht <;> obtain ⟨x, hx, rfl⟩ := ht
  · exact setFields_ind (P := fun l => l.holdThreshold ≤ 12) _ (fun a i v b => line_thr a i v b) _ _ _ h hx
  all_goals exact h

/-- R195: `carryOut` keeps the hold threshold in range. -/
theorem carryOut_thr (r) (s : State) (h : Thr s) : Thr (carryOut r s).1 := by
  cases r with
  | writeFields t row pairs =>
    simp only [carryOut, writeFieldsRequest]; repeat' split
    all_goals first
      | exact h
      | exact writeRow_thr _ _ _ _ _ h ‹_›
  | _ => exact h.of (by simp [carryOut, resetRequested])

/-- R195: `takeRequest` keeps the hold threshold in range. -/
theorem takeRequest_thr (f) (s : State) (h : Thr s) : Thr (takeRequest f s) := by
  unfold takeRequest; refine Thr.of (s := (perform f.payload (reserveEntry s)).1) ?_ (by simp)
  unfold perform; repeat' split
  · exact h
  · exact carryOut_thr _ _ h
  · exact h

/-- R195: `handMreq` keeps the hold threshold in range. -/
theorem handMreq_thr (f) (s : State) (h : Thr s) : Thr (handMreq f s) := by
  unfold handMreq; repeat' split
  · exact h.of (by simp)
  · exact takeRequest_thr _ _ h
  · exact h

/-- R195: `arrive` keeps the hold threshold in range. -/
theorem arrive_thr (p f) (s : State) (h : Thr s) : Thr (arrive p f s) :=
  have h' : Thr (s.frameCounted p) := h.of (by simp)
  classify_cases (handMreq_thr _ _ (h'.of (by simp))) (h'.of (by simp)) (h'.of (by simp))
    (forOwn_cases (h'.of (by simp)) (h'.of (by simp)) (h'.of (by simp)) (handMreq_thr _ _ (h'.of (by simp)))
      (h'.of (by simp)) (h'.of (by simp)) (h'.of (by simp))) (h'.of (by simp))

/-- R152: `endArrival` keeps that HOLD-OUT follows the free slots. -/
theorem endArrival_hof (s : State) (h : Thr s) : (endArrival s).HoldOutFollows := hof_set _ rfl h

/-- R152: `withSlot` keeps that HOLD-OUT follows the free slots. -/
theorem withSlot_hof (p body) (s : State) (h : s.HoldOutFollows) (hb : ∀ s, Thr s → Thr (body s)) :
    (withSlot p body s).HoldOutFollows := by
  refine withSlot_ind _ _ _ (hof_of h (.of_view (by cases p <;> rfl)) (by simp) (by simp)) fun _ => endArrival_hof _ (hb _ h.2.1)

/-- R152: `mreqReceived` keeps that HOLD-OUT follows the free slots. -/
theorem mreqReceived_hof (p a b) (s : State) (h : s.HoldOutFollows) : (mreqReceived p a b s).HoldOutFollows :=
  withSlot_hof _ _ _ h fun _ hs => handMreq_thr _ _ (hs.of (by simp))

/-- R152: `setReceiver` keeps that HOLD-OUT follows the free slots. -/
theorem setReceiver_hof (p r) (s : State) (h : s.HoldOutFollows) (hr : r.slots = (s.port p).receiver.slots) :
    (s.setReceiver p r).HoldOutFollows := by
  obtain ⟨a, b, c⟩ := h
  refine ⟨by simpa using a, by simpa using b, ?_⟩
  cases p <;> simp [State.freeForwarding, State.heldForwarding, State.setReceiver, State.port, State.setPort] at hr c ⊢ <;> simpa [hr] using c

/-- R152: `characterReceived` keeps that HOLD-OUT follows the free slots. -/
theorem characterReceived_hof (p c) (s : State) (h : s.HoldOutFollows) :
    (characterReceived p c s).HoldOutFollows := by
  have CP : ∀ f (s : State), s.HoldOutFollows → (s.countPort p f).HoldOutFollows := fun f s h => hof_of h (.of_view (by cases p <;> rfl)) (by simp) (by simp)
  have AB : ∀ (s : State), s.HoldOutFollows → (abandonFrame p s).HoldOutFollows := fun s h => hof_set _ (by simpa using h.1) (Thr.of h.2.1 (by simp))
  have HR : ∀ v (s : State), s.HoldOutFollows → (s.port p).receiver.slots = 0 → (headerReceived p v s).HoldOutFollows := by
    intro v s h h0
    unfold headerReceived countFormatDrop; repeat' split
    · exact setReceiver_hof _ _ _ (CP _ _ h) (by rw [State.port_countPort]; exact h0.symm)
    · exact setReceiver_hof _ _ _ (CP _ _ h) (by rw [State.port_countPort]; exact h0.symm)
    · exact hof_set _ (by simpa using h.1) (Thr.of h.2.1 (by simp))
  unfold characterReceived; split
  · unfold errorReceived countCharError; dsimp only; split
    · rename_i hk
      exact setReceiver_hof _ _ _ (CP _ _ h) (by rw [hk]; rfl)
    · exact CP _ _ h
    · exact AB _ (CP _ _ (CP _ _ h))
  · unfold goodReceived; split
    · rename_i hk
      split
      · exact HR _ _ h (by rw [hk]; rfl)
      · exact h
    · rename_i hk
      split
      · exact HR _ _ h (by rw [hk]; rfl)
      · exact h
    · rename_i k hk
      unfold fillReceived truncateFrame storeCharacter countFormatDrop frameComplete; dsimp only; repeat' split
      · exact AB _ (CP _ _ (CP _ _ h))
      · exact setReceiver_hof _ _ _ (CP _ _ h) (by simp [hk, Receiver.slots])
      · exact AB _ (CP _ _ h)
      · exact endArrival_hof _ (arrive_thr _ _ _ (Thr.of h.2.1 (by simp)))
      · exact hof_set _ (by simpa using h.1) (Thr.of h.2.1 (by simp))
      · exact setReceiver_hof _ _ _ h (by simp [hk, Receiver.slots])

/-- What `leaveFqd` leaves as it was of what is read. -/
theorem leaveFqd_view (e) (x : State) : storeView (leaveFqd e x).2 = storeView x ∧
    (leaveFqd e x).2.holdOut = x.holdOut ∧ (leaveFqd e x).2.tables = x.tables := by
  unfold leaveFqd rewriteSetpoint countSetpoint; dsimp only; repeat' split
  all_goals exact ⟨rfl, rfl, rfl⟩

/-- R152: `startFqd` keeps that HOLD-OUT follows the free slots. -/
theorem startFqd_hof (l : List FwdFrame) (s : State) (h : s.HoldOutFollows) (hl : s.store.fqd = l) (ht :
    s.portD.transmitter = none) : (startFqd l s).HoldOutFollows := by
  induction l generalizing s with
  | nil => exact hof_of h (.of_view (by simp [storeView, startFqd, hl])) rfl rfl
  | cons e rest ih =>
    unfold startFqd; split
    · exact ih _ (hof_set _ h.1 h.2.1) rfl ht
    · dsimp only
      have hvr := leaveFqd_view e { s with store.fqd := rest }
      generalize leaveFqd e { s with store.fqd := rest } = r at hvr
      obtain ⟨view, w1, w2⟩ := hvr
      simp only [storeView, slotView, Prod.mk.injEq] at view
      obtain ⟨a, b, c⟩ := h
      refine ⟨by simpa [startFrame, view] using a, by simpa [startFrame, w2] using b, ?_⟩
      have e1 : (startFrame .d r.1 .forwarded r.2).heldForwarding = s.heldForwarding := by
        simp [startFrame, State.setTransmitter, State.setPort, State.port, State.heldForwarding, view, hl, ht, transmitterSlots]
        omega
      rw [State.freeForwarding, e1]
      simpa [startFrame, w1, w2, State.freeForwarding] using c

/-- R152: `transmitStarts` keeps that HOLD-OUT follows the free slots. -/
theorem transmitStarts_hof (p) (s : State) (h : s.HoldOutFollows) : (transmitStarts p s).HoldOutFollows := by
  unfold transmitStarts; split
  · exact h
  · rename_i hn
    simp at hn
    obtain ⟨a, b, c⟩ := h
    have key : ∀ t : State, t.store.arriving = s.store.arriving → t.tables = s.tables → t.holdOut = s.holdOut → t.heldForwarding = s.heldForwarding → t.HoldOutFollows := by
      intro t h1 h2 h3 h4
      refine ⟨h1 ▸ a, h2 ▸ b, ?_⟩
      rw [State.freeForwarding, h4, h3, h2]; exact c
    cases p <;> simp only [State.port] at hn ⊢
    · unfold arbiterU; repeat' split
      · refine key _ rfl rfl rfl ?_
        simp [startFrame, State.setTransmitter, State.setPort, State.port, State.heldForwarding, transmitterSlots, hn.1]
      · rename_i e rest hq
        refine key _ rfl rfl rfl ?_
        simp [startFrame, State.setTransmitter, State.setPort, State.port, State.heldForwarding, transmitterSlots, hn.1, hq]; omega
      · exact ⟨a, b, c⟩
    · unfold arbiterD; repeat' split
      · refine key _ rfl rfl rfl ?_
        simp [startLatch, startFrame, State.setTransmitter, State.setPort, State.port, State.heldForwarding, transmitterSlots, hn.1]
      · refine key _ rfl rfl rfl ?_
        simp [startFrame, State.setTransmitter, State.setPort, State.port, State.heldForwarding, transmitterSlots, hn.1]
      · exact startFqd_hof _ _ ⟨a, b, c⟩ rfl hn.1

/-- R152: `emptyStage` keeps that HOLD-OUT follows the free slots. -/
theorem emptyStage_hof (p) (x : Holding) (s : State) (h : s.HoldOutFollows) (hx : (s.port p).transmitter = some x)
    (h0 : transmitterSlots (some x) = 0) : (emptyStage p s).HoldOutFollows := by
  obtain ⟨a, b, c⟩ := h
  refine ⟨by simpa [emptyStage] using a, by simpa [emptyStage] using b, ?_⟩
  have : (emptyStage p s).heldForwarding = s.heldForwarding := by
    cases p <;> simp only [State.port] at hx <;> simp only [State.heldForwarding, hx, h0] <;> rfl
  rw [State.freeForwarding, this]; simpa [emptyStage, State.freeForwarding] using c

/-- R157: a released frame holds no slot. -/
theorem slots_released (x : Holding) (h : x.released = true) : transmitterSlots
    (some x) = 0 := by simp [transmitterSlots, h]

/-- R152: `releaseDeparted` keeps that HOLD-OUT follows the free slots. -/
theorem releaseDeparted_hof (p x) (s : State) (h : s.HoldOutFollows) (hx : (s.port p).transmitter = some x) :
    (releaseDeparted p x s).HoldOutFollows := by
  unfold releaseDeparted; dsimp only
  have hT : Thr (s.setTransmitter p (some { x with released := true })) := Thr.of h.2.1 (by simp)
  have hA : (s.setTransmitter p (some { x with released := true })).store.arriving = false := by simpa using h.1
  have K : x.origin ≠ .forwarded → (s.setTransmitter p (some { x with released := true })).HoldOutFollows := by
    intro hne
    refine ⟨hA, hT, ?_⟩
    have : (s.setTransmitter p (some { x with released := true })).heldForwarding = s.heldForwarding := by
      cases p <;> simp [State.port] at hx <;> simp [State.setTransmitter, State.setPort, State.port, State.heldForwarding, hx, transmitterSlots, hne]
    rw [State.freeForwarding, this]; simpa [State.freeForwarding] using h.2.2
  split
  · exact hof_set _ hA hT
  · exact K (by simp [*])
  · exact hof_of (K (by simp [*])) (.of_view rfl) rfl rfl

/-- R152: `departure` keeps that HOLD-OUT follows the free slots. -/
theorem departure_hof (p) (s : State) (h : s.HoldOutFollows) : (departure p s).HoldOutFollows := by
  unfold departure; split
  · exact h
  · rename_i hd htx
    have hc : (s.countPort p (fun c => { c with framesSent := bump c.framesSent })).HoldOutFollows := hof_of h (.of_view (by cases p <;> rfl)) (by simp) (by simp)
    have htx' : ((s.countPort p (fun c => { c with framesSent := bump c.framesSent })).port p).transmitter = some hd := by simpa using htx
    have hr := releaseDeparted_hof p hd _ hc htx'
    have hrt := releaseDeparted_tx p hd (s.countPort p (fun c => { c with framesSent := bump c.framesSent }))
    unfold departs; dsimp only; cases p
    · dsimp only; unfold finishU; split
      · refine ⟨rfl, hr.2.1, ?_⟩
        have : (resetRequestEffect (releaseDeparted .u hd (s.countPort .u (fun c => { c with framesSent := bump c.framesSent })))).freeForwarding = 24 := rfl
        rw [this]
        have := hr.2.1
        simp [resetRequestEffect, pinResetState, powerUpState, State.reset] at this ⊢; omega
      · rename_i m _ ho
        have H1 : ∀ y : State, y.HoldOutFollows → (takeHeld y).HoldOutFollows := by
          intro y hy; unfold takeHeld; split
          · exact hy
          · refine hof_set _ (by simpa using hy.1) (takeRequest_thr _ y hy.2.1)
        have H2 : ∀ y : State, y.portU.transmitter = some { hd with released := true } → (takeHeld y).portU.transmitter = some { hd with released := true } := by
          intro y hy; simpa using hy
        refine emptyStage_hof .u { hd with released := true } _ ?_ ?_ (slots_released _ rfl)
        · unfold departedInjU
          refine hof_of (H1 (reportMark _ _) ?_) (sendAlarms_grows _) (by simp) (by simp)
          exact hof_of hr (.of_view (reportMark_view _ _)) (by simp) (by simp)
        · simp only [State.port] at hrt ⊢; simpa [departedInjU] using hrt
      · exact emptyStage_hof .u { hd with released := true } _ hr hrt (slots_released _ rfl)
      · exact emptyStage_hof .u { hd with released := true } _ hr hrt (slots_released _ rfl)
    · dsimp only
      have g : StoreGrows (releaseDeparted .d hd (s.countPort .d (fun c => { c with framesSent := bump c.framesSent }))) (departedD hd (releaseDeparted .d hd (s.countPort .d (fun c => { c with framesSent := bump c.framesSent })))) := by
        unfold departedD cutreqDeparted; repeat' split
        all_goals first
          | exact .refl _
          | exact StoreGrows.trans (.of_view (by simp [storeView])) (iqdDeparted_grows _)
          | exact .of_view (by simp [storeView])
      refine emptyStage_hof .d { hd with released := true } _ ?_ ?_ (slots_released _ rfl)
      · exact hof_of hr g (by simp) (by simp)
      · exact g.txD.trans hrt

end Sys2Proof.Machine
end

