-- ==== Sys2Proof/Laws/LineMode.lean ====
section
/-! SUPPORT. The mode, HAULWATCH and the speed latch (R17, R32, R165) through every operation. -/

namespace Sys2Proof.Machine

/-- What the agreement of mode and latch reads of a state. -/
def modeView (s : State) := (s.tally.haulwatch.running, s.mode, s.store.latchPending)

/-- R17, R32, R165: states that agree on what is read keep the agreement of mode, HAULWATCH and latch. -/
theorem State.ModeAgrees.of_view {s t : State} (h : modeView t = modeView s) (hs : s.ModeAgrees) : t.ModeAgrees := by
  simp [modeView] at h
  obtain ⟨h1, h2, h3⟩ := h
  simpa [State.ModeAgrees, h1, h2, h3] using hs

/-- R17, R32, R165: `creepRequest` keeps the agreement of mode, HAULWATCH and latch. -/
theorem creepRequest_modes (s : State) (h : s.ModeAgrees) : (creepRequest s).ModeAgrees := by
  unfold creepRequest; split <;> simp_all [State.ModeAgrees]

/-- R17, R32, R165: `haltRequest` keeps the agreement of mode, HAULWATCH and latch. -/
theorem haltRequest_modes (s : State) (h : s.ModeAgrees) : (haltRequest s).ModeAgrees := by
  unfold haltRequest; split <;> simp_all [State.ModeAgrees, stopHaulwatch]

/-- R17, R32, R165: `modeRequest` keeps the agreement of mode, HAULWATCH and latch. -/
theorem modeRequest_modes (c) (s : State) (h : s.ModeAgrees) : (modeRequest c s).ModeAgrees := by
  cases c <;> simp [modeRequest, *, creepRequest_modes, haltRequest_modes]

/-- R17, R32, R165: `creepExit` keeps the agreement of mode, HAULWATCH and latch. -/
theorem creepExit_modes (s : State) (h : s.ModeAgrees) : (creepExit s).ModeAgrees := by
  unfold creepExit; split
  · simp_all [State.ModeAgrees]
  · exact h

/-- R17, R32, R165: `handle` keeps the agreement of mode, HAULWATCH and latch. -/
theorem handle_modes (o) (s : State) (h : s.ModeAgrees) : (handle o s).ModeAgrees := by
  unfold handle; dsimp only; split
  · exact .of_view (by simp [modeView]) h
  · apply modeRequest_modes; exact .of_view (by simp [modeView]) h

/-- R17, R32, R165: `raise` keeps the agreement of mode, HAULWATCH and latch. -/
theorem raise_modes (k a b c) (s : State) (h : s.ModeAgrees) : (raise k a b c s).ModeAgrees := handle_modes _ _ h

/-- R17, R32, R165: `handleAll` keeps the agreement of mode, HAULWATCH and latch. -/
theorem handleAll_modes (l) (s : State) (h : s.ModeAgrees) : (handleAll l s).ModeAgrees := by
  unfold handleAll
  induction l generalizing s with
  | nil => exact h
  | cons o r ih => exact ih _ (handle_modes _ _ h)

/-- R17, R32, R165: `examineOverlength` keeps the agreement of mode, HAULWATCH and latch. -/
theorem examineOverlength_modes (s : State) (h : s.ModeAgrees) : (examineOverlength s).ModeAgrees := by
  unfold examineOverlength; split
  · exact raise_modes _ _ _ _ _ h
  · exact h

/-- R17, R32, R165: `cutRequest` keeps the agreement of mode, HAULWATCH and latch. -/
theorem cutRequest_modes (s : State) (h : s.ModeAgrees) : (cutRequest s).ModeAgrees := by
  unfold cutRequest; split
  · exact raise_modes _ _ _ _ _ (.of_view (by simp [modeView]) h)
  · exact .of_view (by simp [modeView]) h

/-- R17, R32, R165: `coilUnderflowed` keeps the agreement of mode, HAULWATCH and latch. -/
theorem coilUnderflowed_modes (l) (s : State) (h : s.ModeAgrees) : (coilUnderflowed l s).ModeAgrees := by
  unfold coilUnderflowed; split
  · exact cutRequest_modes _ h
  · exact h

/-- R17, R32, R165: `handImmediate` keeps the agreement of mode, HAULWATCH and latch. -/
theorem handImmediate_modes (s : State) (h : s.ModeAgrees) : (handImmediate s).ModeAgrees := by
  unfold handImmediate; split
  · exact coilUnderflowed_modes _ _ h
  · exact h

/-- R17, R32, R165: `manualCut` keeps the agreement of mode, HAULWATCH and latch. -/
theorem manualCut_modes (s : State) (h : s.ModeAgrees) : (manualCut s).ModeAgrees := cutRequest_modes _ h

/-- R17, R32, R165: `roomMade` keeps the agreement of mode, HAULWATCH and latch. -/
theorem roomMade_modes (s : State) (h : s.ModeAgrees) : (roomMade s).ModeAgrees := by
  unfold roomMade; split
  · exact creepExit_modes _ (.of_view (by simp [modeView]) h)
  · exact h

/-- R17, R32, R165: `packedReceived` keeps the agreement of mode, HAULWATCH and latch. -/
theorem packedReceived_modes (a b) (s : State) (h : s.ModeAgrees) : (packedReceived a b s).ModeAgrees := by
  unfold packedReceived packedNamed packOldest; repeat' split
  · exact h
  · exact .of_view (by simp [modeView]) h
  · exact roomMade_modes _ h
  · exact raise_modes _ _ _ _ _ (.of_view (by simp [modeView]) h)

/-- R17, R32, R165: `addLength` keeps the agreement of mode, HAULWATCH and latch. -/
theorem addLength_modes (n) (s : State) (h : s.ModeAgrees) : (addLength n s).ModeAgrees := examineOverlength_modes _ h

/-- R17, R32, R165: `cutwaitExpired` keeps the agreement of mode, HAULWATCH and latch. -/
theorem cutwaitExpired_modes (s : State) (h : s.ModeAgrees) : (cutwaitExpired s).ModeAgrees :=
  raise_modes _ _ _ _ _ (examineOverlength_modes _ h)

/-- R17, R32, R165: `turnsReceived` keeps the agreement of mode, HAULWATCH and latch. -/
theorem turnsReceived_modes (u p) (s : State) (h : s.ModeAgrees) : (turnsReceived u p s).ModeAgrees := by
  unfold turnsReceived takeTurns; repeat' split
  · exact h
  · dsimp only; split
    · exact raise_modes _ _ _ _ _ h
    · exact h
  · exact h

/-- R17, R32, R165: `windowEnded` keeps the agreement of mode, HAULWATCH and latch. -/
theorem windowEnded_modes (w) (s : State) (h : s.ModeAgrees) : (windowEnded w s).ModeAgrees := by
  unfold windowEnded; split
  · exact handleAll_modes _ _ h
  · exact h

/-- R17, R32, R165: `rowdoneReceived` keeps the agreement of mode, HAULWATCH and latch. -/
theorem rowdoneReceived_modes (p) (s : State) (h : s.ModeAgrees) : (rowdoneReceived p s).ModeAgrees := by
  unfold rowdoneReceived rowReported processRow; repeat' split
  · exact h
  · dsimp only; split
    · exact h
    · exact handleAll_modes _ _ (.of_view (by simp [modeView]) h)
  · exact h

/-- R17, R32, R165: `giveCoil` keeps the agreement of mode, HAULWATCH and latch. -/
theorem giveCoil_modes (n) (s : State) (h : s.ModeAgrees) : (giveCoil n s).ModeAgrees := by
  unfold giveCoil; dsimp only; repeat' split
  · exact coilUnderflowed_modes _ _ h
  · exact h
  · exact h

/-- R17, R32, R165: `giveMark` keeps the agreement of mode, HAULWATCH and latch. -/
theorem giveMark_modes (n) (s : State) (h : s.ModeAgrees) : (giveMark n s).ModeAgrees :=
  .of_view (by simp [modeView]) h

/-- R17, R32, R165: `giveWindow` keeps the agreement of mode, HAULWATCH and latch. -/
theorem giveWindow_modes (n) (s : State) (h : s.ModeAgrees) : (giveWindow n s).ModeAgrees := by
  unfold giveWindow; dsimp only; repeat' split
  · exact windowEnded_modes _ _ h
  · exact h
  · exact h

/-- R17, R32, R165: `haulReceived` keeps the agreement of mode, HAULWATCH and latch. -/
theorem haulReceived_modes (p) (s : State) (h : s.ModeAgrees) : (haulReceived p s).ModeAgrees := by
  have hh : ∀ i (s : State), s.ModeAgrees → (haulHeard i s).ModeAgrees := by
    intro i s h; unfold haulHeard; split
    · rename_i hp
      have : s.mode = .run ∨ s.mode = .creep := by
        cases hm : s.mode <;> simp_all [Mode.produces]
      simp_all [State.ModeAgrees, presetHaulwatch]
    · exact h
  unfold haulReceived; split
  · exact h
  · dsimp only
    have := hh (signedOf 2 (numberAt p 1 2)) { s with tally.haulTaken := bump s.tally.haulTaken } h
    unfold applyIncrement; repeat' split
    · exact this
    · unfold haulForward; dsimp only; split
      · exact .of_view (by simp [modeView]) this
      · exact giveWindow_modes _ _ (giveMark_modes _ _ (giveCoil_modes _ _ (addLength_modes _ _ (.of_view (by simp [modeView]) this))))
    · exact raise_modes _ _ _ _ _ this
    · exact .of_view (by simp [modeView]) this

/-- R17, R32, R165: `openNewCoil` keeps the agreement of mode, HAULWATCH and latch. -/
theorem openNewCoil_modes (a b) (s : State) (h : s.ModeAgrees) : (openNewCoil a b s).ModeAgrees := by
  unfold openNewCoil; exact handImmediate_modes _ (examineOverlength_modes _ (.of_view (by simp [modeView]) h))

/-- R17, R32, R165: `closeAndOpen` keeps the agreement of mode, HAULWATCH and latch. -/
theorem closeAndOpen_modes (a) (s : State) (h : s.ModeAgrees) : (closeAndOpen a s).ModeAgrees := by
  unfold closeAndOpen; dsimp only; split
  · exact raise_modes _ _ _ _ _ (openNewCoil_modes _ _ _ (.of_view (by simp [modeView]) h))
  · exact openNewCoil_modes _ _ _ (.of_view (by simp [modeView]) h)

/-- R17, R32, R165: `cutdoneReceived` keeps the agreement of mode, HAULWATCH and latch. -/
theorem cutdoneReceived_modes (p) (s : State) (h : s.ModeAgrees) : (cutdoneReceived p s).ModeAgrees := by
  unfold cutdoneReceived; repeat' split
  · exact h
  · exact closeAndOpen_modes _ _ h
  · exact raise_modes _ _ _ _ _ h

/-- R17, R32, R165: `productStart` keeps the agreement of mode, HAULWATCH and latch. -/
theorem productStart_modes (a) (s : State) (h : s.ModeAgrees) : (productStart a s).ModeAgrees := by
  unfold productStart; exact handImmediate_modes _ (.of_view (by simp [modeView]) h)

/-- R17, R32, R165: `enterThreading` keeps the agreement of mode, HAULWATCH and latch. -/
theorem enterThreading_modes (s : State) (hm : s.mode = .parked) (h : s.ModeAgrees) :
    (enterThreading s).ModeAgrees := by
  have : ({s with mode := Mode.threading} : State).ModeAgrees := by simp_all [State.ModeAgrees]
  unfold enterThreading; dsimp only; split
  · exact .of_view (by simp [modeView]) this
  · exact handImmediate_modes _ (.of_view (by simp [modeView]) this)

/-- R17, R32, R165: `setModeRequest` keeps the agreement of mode, HAULWATCH and latch. -/
theorem setModeRequest_modes (a) (s : State) (h : s.ModeAgrees) : (setModeRequest a s).1.ModeAgrees := by
  unfold setModeRequest setModeParked setModeThreading setModeRun tryThreading
  repeat' split
  all_goals first
    | exact h
    | (apply enterThreading_modes <;> assumption)
    | (simp_all [State.ModeAgrees, enterParked, enterRun, returnToThreading, presetHaulwatch, stopHaulwatch])

/-- R17, R32, R165: `carryOut` keeps the agreement of mode, HAULWATCH and latch. -/
theorem carryOut_modes (r) (s : State) (h : s.ModeAgrees) (ha : r.availableIn s.mode = true) :
    (carryOut r s).1.ModeAgrees := by
  cases r with
  | readRow => exact h
  | writeFields t row pairs => exact .of_view (s := s) (by simp [modeView, carryOut]) h
  | setMode m => exact setModeRequest_modes _ _ h
  | setProduct =>
    simp only [carryOut, setProductRequest]; repeat' split
    all_goals first | exact h | exact productStart_modes _ _ h
  | setNext => exact .of_view (s := s) (by simp [modeView, carryOut]) h
  | release =>
    simp only [carryOut, releaseRequest]; repeat' split
    · exact h
    · exact h
    · have : s.mode = .halted := by simpa [Request.availableIn] using ha
      simp_all [State.ModeAgrees, releaseLine]
  | cut =>
    simp only [carryOut, cutManually]; split
    · exact manualCut_modes _ h
    · exact h
  | clearFault =>
    simp only [carryOut, clearFaultRequest]; split
    · exact h
    · split
      · exact creepExit_modes _ h
      · exact h
  | clearAll => exact creepExit_modes _ h
  | readFaults => exact h
  | readCoil => exact h
  | readHead => exact h
  | readMesh => exact .of_view (s := s) (by simp [modeView, carryOut]) h
  | readStatus => exact h
  | readCounters => exact h
  | clearCounters => exact h
  | setAddress => exact .of_view (s := s) (by simp [modeView, carryOut]) h
  | reset => exact h

/-- R17, R32, R165: `takeRequest` keeps the agreement of mode, HAULWATCH and latch. -/
theorem takeRequest_modes (f) (s : State) (h : s.ModeAgrees) : (takeRequest f s).ModeAgrees := by
  unfold takeRequest; refine .of_view (s := (perform f.payload (reserveEntry s)).1) (by simp [modeView]) ?_
  unfold perform; split
  · exact h
  · split
    · rename_i r _ ha
      exact carryOut_modes _ _ h ha
    · exact h

/-- R17, R32, R165: `handMreq` keeps the agreement of mode, HAULWATCH and latch. -/
theorem handMreq_modes (f) (s : State) (h : s.ModeAgrees) : (handMreq f s).ModeAgrees := by
  unfold handMreq; repeat' split
  · exact raise_modes _ _ _ _ _ h
  · exact takeRequest_modes _ _ h
  · exact h

/-- R17, R32, R165: `takeHeld` keeps the agreement of mode, HAULWATCH and latch. -/
theorem takeHeld_modes (s : State) (h : s.ModeAgrees) : (takeHeld s).ModeAgrees := by
  unfold takeHeld; split
  · exact h
  · rename_i f _; exact .of_view (by simp [modeView]) (takeRequest_modes f _ h)

/-- R17, R32, R165: `tap` keeps the agreement of mode, HAULWATCH and latch. -/
theorem tap_modes (r f) (s : State) (h : s.ModeAgrees) : (tap r f s).ModeAgrees := by
  unfold tap; split
  · exact turnsReceived_modes _ _ _ h
  · exact haulReceived_modes _ _ h
  · exact rowdoneReceived_modes _ _ h
  · exact h

/-- R17, R32, R165: `forOwn` keeps the agreement of mode, HAULWATCH and latch. -/
theorem forOwn_modes (p r f) (s : State) (h : s.ModeAgrees) : (forOwn p r f s).ModeAgrees :=
  have h' : (countConsumed s).ModeAgrees := .of_view (s := s) (by simp [modeView]) h
  forOwn_cases (.of_view (s := s) (by simp [modeView]) h) (.of_view (s := s) (by simp [modeView]) h)
    (raise_modes _ _ _ _ _ h) (handMreq_modes _ _ h') (cutdoneReceived_modes _ _ h')
    (.of_view (s := s) (by simp [modeView]) h) (packedReceived_modes _ _ _ h')

/-- R17, R32, R165: `classify` keeps the agreement of mode, HAULWATCH and latch. -/
theorem classify_modes (p f) (s : State) (h : s.ModeAgrees) : (classify p f s).ModeAgrees :=
  classify_cases (handMreq_modes _ _ (.of_view (s := s) (by simp [modeView]) h))
    (.of_view (s := s) (by simp [modeView]) h) (raise_modes _ _ _ _ _ h) (forOwn_modes _ _ _ _ h)
    (.of_view (s := tap (s.stationOf f.src) f s) (by simp [modeView]) (tap_modes _ _ _ h))

/-- R17, R32, R165: `arrive` keeps the agreement of mode, HAULWATCH and latch. -/
theorem arrive_modes (p f) (s : State) (h : s.ModeAgrees) : (arrive p f s).ModeAgrees :=
  classify_modes _ _ _ (.of_view (by simp [modeView]) h)

/-- R17, R32, R165: `endArrival` keeps the agreement of mode, HAULWATCH and latch. -/
theorem endArrival_modes (s : State) (h : s.ModeAgrees) : (endArrival s).ModeAgrees := .of_view (by simp [modeView]) h

/-- R17, R32, R165: `characterReceived` keeps the agreement of mode, HAULWATCH and latch. -/
theorem characterReceived_modes (p c) (s : State) (h : s.ModeAgrees) : (characterReceived p c s).ModeAgrees := by
  unfold characterReceived goodReceived fillReceived storeCharacter frameComplete
  dsimp only
  repeat' split
  all_goals first
    | exact endArrival_modes _ (arrive_modes _ _ _ (.of_view (by simp [modeView]) h))
    | (refine State.ModeAgrees.of_view ?_ h; simp [modeView])

/-- R17, R32, R165: `arbiterD` keeps the agreement of mode, HAULWATCH and latch. -/
theorem arbiterD_modes (s : State) (h : s.ModeAgrees) : (arbiterD s).ModeAgrees := by
  unfold arbiterD; repeat' split
  · simp_all [State.ModeAgrees, startLatch]
  · exact .of_view (by simp [modeView]) h
  · exact .of_view (by simp [modeView]) h

/-- R17, R32, R165: `transmitStarts` keeps the agreement of mode, HAULWATCH and latch. -/
theorem transmitStarts_modes (p) (s : State) (h : s.ModeAgrees) : (transmitStarts p s).ModeAgrees := by
  unfold transmitStarts; repeat' split
  · exact h
  · exact arbiterD_modes _ h
  · exact .of_view (by simp [modeView]) h

/-- R17, R32, R165: `sendAlarms` keeps the agreement of mode, HAULWATCH and latch. -/
theorem sendAlarms_modes (s : State) (h : s.ModeAgrees) : (sendAlarms s).ModeAgrees := .of_view (by simp [modeView]) h

/-- R17, R32, R165: `emptyStage` keeps the agreement of mode, HAULWATCH and latch. -/
theorem emptyStage_modes (p) (s : State) (h : s.ModeAgrees) :
    (emptyStage p s).ModeAgrees := .of_view (by simp [modeView]) h

/-- R17, R32, R165: `departure` keeps the agreement of mode, HAULWATCH and latch. -/
theorem departure_modes (p) (s : State) (h : s.ModeAgrees) : (departure p s).ModeAgrees := by
  unfold departure departs finishU; split
  · exact h
  · dsimp only; split
    · exact .of_view (by simp [modeView]) h
    · split
      · simp [State.ModeAgrees, resetRequestEffect, pinResetState, powerUpState, State.reset, Tally.afterResetRequest, Tally.cleared, OneShot.cleared]
      · exact emptyStage_modes _ _ (sendAlarms_modes _ (takeHeld_modes _ (.of_view (by simp [modeView]) h)))
      · exact .of_view (by simp [modeView]) h
      · exact .of_view (by simp [modeView]) h

/-- R17, R32, R165: `handExpiries` keeps the agreement of mode, HAULWATCH and latch. -/
theorem handExpiries_modes (a b) (s : State) (h : s.ModeAgrees) : (handExpiries a b s).ModeAgrees := by
  unfold handExpiries; repeat' split
  · exact h
  · exact raise_modes _ _ _ _ _ h
  · exact cutwaitExpired_modes _ h
  · exact cutwaitExpired_modes _ (raise_modes _ _ _ _ _ h)
  · exact raise_modes _ _ _ _ _ (cutwaitExpired_modes _ h)

/-- R17, R32, R165: `timeBase` keeps the agreement of mode, HAULWATCH and latch. -/
theorem timeBase_modes (s : State) (h : s.ModeAgrees) : (timeBaseExpired s).ModeAgrees := by
  unfold timeBaseExpired; apply handExpiries_modes
  refine ⟨fun hr => h.1 ?_, h.2⟩
  revert hr; simp only [OneShot.tick, OneShot.underflow]; split <;> (try split) <;> simp

/-- R17, R32, R165: `mreqReceived` keeps the agreement of mode, HAULWATCH and latch. -/
theorem mreqReceived_modes (p a b) (s : State) (h : s.ModeAgrees) : (mreqReceived p a b s).ModeAgrees := by
  unfold mreqReceived
  exact withSlot_ind _ _ _ (.of_view (by simp [modeView]) h) fun _ => endArrival_modes _
    (handMreq_modes _ _ (.of_view (s := s) (by simp [modeView]) h))

end Sys2Proof.Machine
end

