-- ==== Sys2Proof/Laws/MeshRows.lean ====
section
/-! SUPPORT. The advance by rows (R68 to R71) as an operation of the mesh monitor alone: the tables are read,
the open coil's rows are counted, and nothing else of the state is read or changed. -/

namespace Sys2Proof.Machine

/-- R69 changes 2 and 3. -/
def Mesh.counted (t : Tables) (m : Mesh) : Mesh :=
  { m with
    cursor.rowsDone := min (m.cursor.rowsDone + 1) 65535
    cursor.phase := nextPhase m.cursor.phase (t.meshRow m.cursor.stepIndex).selvedgeCode }

/-- R70, R71: a new band; miss table entries outside it are removed. -/
def Mesh.within (first last : Nat) (m : Mesh) : Mesh :=
  { m with
    cursor.bandFirst := first
    cursor.bandLast := last
    misses := m.misses.filter (fun e => first ≤ e.position && e.position ≤ last) }

/-- R69 change 4, R70: the taper, where one is due. -/
def Mesh.tapered (t : Tables) (m : Mesh) : Mesh :=
  let row := t.meshRow m.cursor.stepIndex
  let more : Mesh := { m with cursor.taperCount := min (m.cursor.taperCount + 1) 255 }
  if m.cursor.held = false ∧ m.cursor.rowsDone % row.taperEvery = 0 then
    match taperedBand m.cursor.bandFirst m.cursor.bandLast row with
    | some (f, l) => more.within f l
    | none => { more with counts.refusedTapers := bump m.counts.refusedTapers }
  else m

/-- R71: the step after the current one is entered, or refused. -/
def Mesh.entered (i : StepIndex) (row : MeshRow) (m : Mesh) : Mesh :=
  if row.valid ∧ row.first ≤ row.last then
    Mesh.within row.first row.last
      { m with cursor.stepIndex := i, cursor.rowsDone := 0, cursor.taperCount := 0, cursor.phase := 0 }
  else { m with cursor.held := true, counts.refusedSteps := bump m.counts.refusedSteps }

/-- R69 change 5, R71: the step end, where one is due. -/
def Mesh.stepped (t : Tables) (m : Mesh) : Mesh :=
  let row := t.meshRow m.cursor.stepIndex
  if m.cursor.held = false ∧ row.rows ≤ m.cursor.rowsDone then
    match row.next with
    | none => { m with cursor.held := true }
    | some i => m.entered i (t.meshRow i)
  else m

/-- R69: one row. -/
def Mesh.advanced (t : Tables) (m : Mesh) : Mesh := ((m.counted t).tapered t).stepped t

/-- R68: `d` rows, one after another. -/
def Mesh.advancedBy (t : Tables) : Nat → Mesh → Mesh
  | 0, m => m
  | d + 1, m => Mesh.advancedBy t d (m.advanced t)

/-- R69, R90: a state whose open coil has counted `k` rows more, with another mesh monitor. -/
def State.withRows (k : Nat) (m : Mesh) (s : State) : State :=
  { s with
    coil.openCoil.rows :=
      if s.coil.openCoil.net = true ∧ 0 < k then min (s.coil.openCoil.rows + k) 65535 else s.coil.openCoil.rows
    mesh := m }

/-- No row counted and the monitor as it stands is the state itself. -/
@[simp] theorem withRows_zero (s : State) : s.withRows 0 s.mesh = s := by
  unfold State.withRows
  rw [if_neg (by omega)]

/-- R69: rows counted twice are counted once together. -/
@[simp] theorem withRows_withRows (j k : Nat) (m m' : Mesh) (s : State) :
    (s.withRows k m').withRows j m = s.withRows (k + j) m := by
  unfold State.withRows
  have rows : (if s.coil.openCoil.net = true ∧ 0 < j then
        min ((if s.coil.openCoil.net = true ∧ 0 < k then min (s.coil.openCoil.rows + k) 65535
          else s.coil.openCoil.rows) + j) 65535
      else if s.coil.openCoil.net = true ∧ 0 < k then min (s.coil.openCoil.rows + k) 65535 else s.coil.openCoil.rows)
      = if s.coil.openCoil.net = true ∧ 0 < k + j then min (s.coil.openCoil.rows + (k + j)) 65535
        else s.coil.openCoil.rows := by
    cases s.coil.openCoil.net
    · simp
    · simp only [true_and]
      repeat' split
      all_goals omega
  exact congrArg (fun r => ({ s with coil.openCoil.rows := r, mesh := m } : State)) rows

/-- R70, R71: removing the entries outside a band just set. -/
theorem pruneMisses_within (f l : Nat) (m : Mesh) (s : State)
    (h : s.mesh = { m with cursor.bandFirst := f, cursor.bandLast := l }) :
    pruneMisses s = { s with mesh := m.within f l } := by
  unfold pruneMisses Mesh.within
  rw [h]

/-- R69 changes 1 to 3. -/
theorem countRow_eq (s : State) : countRow s = s.withRows 1 (s.mesh.counted s.tables) := by
  unfold countRow addRow State.withRows
  by_cases h : s.coil.openCoil.net = true
  · simp only [h, true_and, if_pos Nat.zero_lt_one]; rfl
  · have rows : (if s.coil.openCoil.net = true ∧ 0 < 1 then min (s.coil.openCoil.rows + 1) 65535
        else s.coil.openCoil.rows) = s.coil.openCoil.rows := by simp [h]
    rw [rows]; simp only [if_neg h]; rfl

/-- R69 change 4. -/
theorem taperIfDue_eq (s : State) : taperIfDue s = { s with mesh := s.mesh.tapered s.tables } := by
  unfold taperIfDue Mesh.tapered taper State.meshStep
  dsimp only
  by_cases h : s.mesh.cursor.held = false
      ∧ s.mesh.cursor.rowsDone % (s.tables.meshRow s.mesh.cursor.stepIndex).taperEvery = 0
  · rw [if_pos h, if_pos h]
    cases taperedBand s.mesh.cursor.bandFirst s.mesh.cursor.bandLast (s.tables.meshRow s.mesh.cursor.stepIndex) with
    | none => rfl
    | some band =>
      exact pruneMisses_within band.1 band.2
        { s.mesh with cursor.taperCount := min (s.mesh.cursor.taperCount + 1) 255 } _ rfl
  · simp only [if_neg h]

/-- R69 change 5. -/
theorem endStepIfDue_eq (s : State) : endStepIfDue s = { s with mesh := s.mesh.stepped s.tables } := by
  unfold endStepIfDue Mesh.stepped endStep State.meshStep
  dsimp only
  by_cases h : s.mesh.cursor.held = false
      ∧ (s.tables.meshRow s.mesh.cursor.stepIndex).rows ≤ s.mesh.cursor.rowsDone
  · rw [if_pos h, if_pos h]
    cases (s.tables.meshRow s.mesh.cursor.stepIndex).next with
    | none => rfl
    | some i =>
      unfold Mesh.entered
      by_cases v : (s.tables.meshRow i).valid = true ∧ (s.tables.meshRow i).first ≤ (s.tables.meshRow i).last
      · simp only [if_pos v]
        exact pruneMisses_within (s.tables.meshRow i).first (s.tables.meshRow i).last { s.mesh with
          cursor.stepIndex := i, cursor.rowsDone := 0, cursor.taperCount := 0, cursor.phase := 0 } _ rfl
      · simp only [if_neg v]; rfl
  · simp only [if_neg h]

/-- R69: all that an advance by one row can do. -/
theorem advance_eq (s : State) : advance s = s.withRows 1 (s.mesh.advanced s.tables) := by
  unfold advance
  rw [endStepIfDue_eq, taperIfDue_eq, countRow_eq]
  rfl

/-- R68: all that an advance by `d` rows can do. -/
theorem advanceBy_eq (d : Nat) (s : State) : advanceBy d s = s.withRows d (Mesh.advancedBy s.tables d s.mesh) := by
  induction d generalizing s with
  | zero => exact (withRows_zero s).symm
  | succ d ih =>
    show advanceBy d (advance s) = _
    rw [advance_eq, ih, withRows_withRows, Nat.add_comm]
    rfl

end Sys2Proof.Machine
end

