-- ==== Sys2Proof/Laws/MeshSound.lean ====
section
/-! SUPPORT. The mesh monitor (R60 to R74) through every operation. -/

namespace Sys2Proof.Machine

/-- What the mesh monitor reads of a state. -/
def meshView (s : State) := (s.tables, s.mesh)

/-- R60 to R74: states that agree on what is read keep the mesh monitor sound. -/
theorem State.MeshSound.of_view {s t : State} (h : meshView t = meshView s) (hs : s.MeshSound) : t.MeshSound := by
  simp only [meshView, Prod.mk.injEq] at h
  unfold State.MeshSound; rw [h.1, h.2]; exact hs

/-- R74: a miss counted again keeps the table sound. -/
theorem missAgain_ok (lim p) (l : List MissEntry) (c : Cursor) (h1 : l.length ≤ 32) (h2 :
    (l.map MissEntry.position).Nodup)
    (h3 : ∀ e ∈ l, c.bandFirst ≤ e.position ∧ e.position ≤ c.bandLast ∧ 1 ≤ e.misses ∧ e.misses ≤ 255) :
    (missAgain lim p l).length ≤ 32 ∧ ((missAgain lim p l).map MissEntry.position).Nodup ∧
    (∀ e ∈ missAgain lim p l, c.bandFirst ≤ e.position ∧ e.position ≤ c.bandLast ∧ 1 ≤ e.misses ∧ e.misses ≤ 255) := by
  refine ⟨by simpa [missAgain] using h1, ?_, ?_⟩
  · have : (missAgain lim p l).map MissEntry.position = l.map MissEntry.position := by
      simp only [missAgain, List.map_map]; apply List.map_congr_left; intro e _; simp; split <;> rfl
    rw [this]; exact h2
  · intro e he
    obtain ⟨y, hy, rfl⟩ := List.mem_map.1 he
    have := h3 y hy
    split
    · refine ⟨this.1, this.2.1, ?_, ?_⟩ <;> simp only [satAdd] <;> omega
    · exact this

/-- R74: another sound miss table. -/
theorem sound_misses {m : Mesh} (l : List MissEntry) (h : m.Sound) (ha : m.active = true) (h1 : l.length ≤ 32) (h2 :
    (l.map MissEntry.position).Nodup)
    (h3 : ∀ e ∈ l, m.cursor.bandFirst ≤ e.position ∧ e.position ≤ m.cursor.bandLast ∧ 1 ≤ e.misses ∧ e.misses ≤ 255) : Mesh.Sound { m with misses := l } :=
  ⟨fun hf => by simp [ha] at hf, h.2.1, h.2.2.1, h1, h2, h3⟩

/-- R76: entries removed. -/
theorem sound_sub {m : Mesh} (f) (h : m.Sound) : Mesh.Sound { m with misses := m.misses.filter f } := by
  obtain ⟨a, b, c, d, e, g⟩ := h
  have hs : (m.misses.filter f).Sublist m.misses := List.filter_sublist
  exact ⟨fun hf => ⟨(a hf).1, by simp [(a hf).2]⟩, b, c, Nat.le_trans hs.length_le d, e.sublist (hs.map _), fun x hx => g x (hs.subset hx)⟩

/-- R82: the counts are free. -/
theorem sound_counts {m : Mesh} (k) (h : m.Sound) : Mesh.Sound { m with counts := k } := h

/-- R60 to R74: `scanPosition` keeps the mesh monitor sound. -/
theorem scanPosition_sound (sc : RowScan) (p) (h : sc.state.mesh.Sound) (ha : sc.state.mesh.active = true) :
    (scanPosition sc p).state.mesh.Sound ∧ (scanPosition sc p).state.mesh.active = true := by
  unfold scanPosition trackMiss missUntracked; dsimp only
  repeat' split
  all_goals refine ⟨?_, ha⟩
  · exact h
  · have := missAgain_ok sc.state.product.needleLimit p _ sc.state.mesh.cursor h.2.2.2.1 h.2.2.2.2.1 h.2.2.2.2.2
    exact sound_misses _ h ha this.1 this.2.1 this.2.2
  · have := missAgain_ok sc.state.product.needleLimit p _ sc.state.mesh.cursor h.2.2.2.1 h.2.2.2.2.1 h.2.2.2.2.2
    exact sound_misses _ h ha this.1 this.2.1 this.2.2
  · rename_i hb hc hany hlen
    refine sound_misses _ h ha (by simp; omega) ?_ ?_
    · simp only [List.map_append, List.map_cons, List.map_nil]
      refine List.nodup_append.2 ⟨h.2.2.2.2.1, by simp, ?_⟩
      intro x hx y hy; simp at hy; subst hy
      obtain ⟨r, hr, rfl⟩ := List.mem_map.1 hx
      intro he; exact hany (List.any_eq_true.2 ⟨r, hr, by simpa using he⟩)
    · intro e he
      rcases List.mem_append.1 he with he | he
      · exact h.2.2.2.2.2 e he
      · simp at he; subst he
        simp [Cursor.inBand] at hb
        refine ⟨hb.1.1, hb.1.2, by simp, by simp⟩
  · exact h
  · exact h
  · exact h

/-- R60 to R74: `scanPositions` keeps the mesh monitor sound. -/
theorem scanPositions_sound (l) (sc : RowScan) (h : sc.state.mesh.Sound) (ha : sc.state.mesh.active = true) :
    (scanPositions l sc).state.mesh.Sound ∧ (scanPositions l sc).state.mesh.active = true := by
  unfold scanPositions
  induction l generalizing sc with
  | nil => exact ⟨h, ha⟩
  | cons p r ih => exact ih _ (scanPosition_sound sc p h ha).1 (scanPosition_sound sc p h ha).2

/-- a cursor moved to a new band, pruned -/
theorem prune_sound (m : Mesh) (c : Cursor) (h : m.Sound) (ha : m.active = true) (hb : c.bandFirst ≤ c.bandLast ∧
    c.bandLast ≤ 511)
    (he : c.expected = none → c.pitchRef = none) : Mesh.Sound { m with cursor := c, misses := m.misses.filter (fun e => c.bandFirst ≤ e.position && e.position ≤ c.bandLast) } := by
  obtain ⟨_, _, _, d, e, g⟩ := h
  have hs : (m.misses.filter (fun e => c.bandFirst ≤ e.position && e.position ≤ c.bandLast)).Sublist m.misses := List.filter_sublist
  refine ⟨fun hf => by simp [ha] at hf, fun _ => hb, he, Nat.le_trans hs.length_le d, e.sublist (hs.map _), fun x hx => ?_⟩
  have hx' := List.mem_filter.1 hx
  have := g x hx'.1
  simp at hx'
  exact ⟨hx'.2.1, hx'.2.2, this.2.2⟩

/-- The mesh monitor sound, ACTIVE, the tables in range. -/
def MS (s : State) := s.tables.InRange ∧ s.mesh.Sound ∧ s.mesh.active = true

/-- R60 to R74: `taper` keeps the mesh monitor sound while ACTIVE. -/
theorem taper_ms (s : State) (h : MS s) : MS (taper s) := by
  obtain ⟨ht, hm, ha⟩ := h
  unfold taper; dsimp only; split
  · rename_i f l hfl
    refine ⟨ht, ?_, ha⟩
    unfold taperedBand at hfl; dsimp only at hfl; split at hfl
    · rename_i hc
      simp at hfl
      exact prune_sound s.mesh { s.mesh.cursor with taperCount := satAdd 255 s.mesh.cursor.taperCount 1, bandFirst := f, bandLast := l } hm ha (by simp only; omega) hm.2.2.1
    · simp at hfl
  · refine ⟨ht, ⟨fun hf => ?_, hm.2.1, hm.2.2.1, hm.2.2.2⟩, ha⟩
    simp [ha] at hf

/-- R195: every step row is in range. -/
theorem meshRow_inRange (t : Tables) (i) (h : t.InRange) : (t.meshRow i).InRange :=
  getD_of_forall h.mesh mesh_powerUp

/-- R60 to R74: `cursor` keeps the mesh monitor sound while ACTIVE. -/
theorem cursor_ms (s : State) (c : Cursor) (h : MS s) (hb : c.bandFirst = s.mesh.cursor.bandFirst) (hl :
    c.bandLast = s.mesh.cursor.bandLast)
    (he : c.expected = none → c.pitchRef = none) : MS { s with mesh.cursor := c } := by
  obtain ⟨ht, hm, ha⟩ := h
  refine ⟨ht, ⟨fun hf => by simp [ha] at hf, fun _ => by rw [hb, hl]; exact hm.2.1 ha, he, hm.2.2.2.1, hm.2.2.2.2.1, ?_⟩, ha⟩
  intro e he; simp only [hb, hl]; exact hm.2.2.2.2.2 e he

/-- R60 to R74: `endStep` keeps the mesh monitor sound while ACTIVE. -/
theorem endStep_ms (s : State) (h : MS s) : MS (endStep s) := by
  unfold endStep; split
  · exact cursor_ms s _ h rfl rfl h.2.1.2.2.1
  · dsimp only; split
    · rename_i i _ hc
      obtain ⟨ht, hm, ha⟩ := h
      refine ⟨ht, ?_, ha⟩
      have := meshRow_inRange s.tables i ht
      unfold MeshRow.InRange at this
      exact prune_sound s.mesh { s.mesh.cursor with stepIndex := i, bandFirst := (s.tables.meshRow i).first, bandLast := (s.tables.meshRow i).last, rowsDone := 0, taperCount := 0, phase := 0 } hm ha (by simp only; omega) hm.2.2.1
    · exact cursor_ms { s with mesh.counts.refusedSteps := bump s.mesh.counts.refusedSteps } _ h rfl rfl h.2.1.2.2.1

/-- R60 to R74: `advance` keeps the mesh monitor sound while ACTIVE. -/
theorem advance_ms (s : State) (h : MS s) : MS (advance s) := by
  unfold advance
  have h1 : MS (countRow s) := by
    have e1 : (countRow s).tables = s.tables := by simp
    have : MS (addRow s) := by unfold addRow; split <;> exact h
    exact cursor_ms (addRow s) _ this rfl rfl this.2.1.2.2.1
  have h2 : MS (taperIfDue (countRow s)) := by unfold taperIfDue; split; exact taper_ms _ h1; exact h1
  unfold endStepIfDue; split
  · exact endStep_ms _ h2
  · exact h2

/-- R60 to R74: `advanceBy` keeps the mesh monitor sound while ACTIVE. -/
theorem advanceBy_ms (d) (s : State) (h : MS s) : MS (advanceBy d s) := by
  induction d generalizing s with
  | zero => exact h
  | succ d ih => exact ih _ (advance_ms s h)

/-- R60 to R74: `processRow` keeps the mesh monitor sound. -/
theorem processRow_sound (d row missing listed) (s : State) (h : MS s) :
    (processRow d row missing listed s).MeshSound := by
  unfold processRow; dsimp only
  have h1 := advanceBy_ms d s h
  have h2 := scanPositions_sound listed { state := advanceBy d s, seen := [], fullNoted := false, noted := [] } h1.2.1 h1.2.2
  have ht2 : (scanPositions listed { state := advanceBy d s, seen := [], fullNoted := false, noted := [] }).state.tables = s.tables := by simp
  generalize scanPositions listed { state := advanceBy d s, seen := [], fullNoted := false, noted := [] } = sc at h2 ht2
  have h3 : MS (clearMisses missing listed sc.state) := by
    refine ⟨by simpa [ht2] using h.1, ?_, ?_⟩ <;> unfold clearMisses <;> split
    · exact sound_sub _ h2.1
    · exact h2.1
    · exact h2.2
    · exact h2.2
  generalize clearMisses missing listed sc.state = s4 at h3 ⊢
  have h4 := advance_ms _ h3
  have h5 : MS (expectNext row (advance s4)) := cursor_ms (advance s4) _ h4 rfl rfl (fun h => by simp at h)
  exact .of_view (s := expectNext row (advance s4)) (by simp [meshView]) ⟨h5.1, h5.2.1⟩

/-- R60 to R74: `rowdoneReceived` keeps the mesh monitor sound. -/
theorem rowdoneReceived_sound (p) (s : State) (h : s.MeshSound) : (rowdoneReceived p s).MeshSound := by
  unfold rowdoneReceived rowReported; repeat' split
  · exact h
  · rename_i ha
    simp [State.processesRows] at ha
    dsimp only; split
    · exact h
    · exact processRow_sound _ _ _ _ _ ⟨h.1, h.2, ha.2⟩
  · exact h

/-- R7: an examined start step has a valid band. -/
theorem meshRowOk_band (t : Tables) (p : ProductRow) (h : examineMesh t p = none) (hk : p.kind = .twineNet) :
    (t.meshRow p.startStep).first ≤ (t.meshRow p.startStep).last := by
  unfold examineMesh at h; rw [hk] at h; dsimp only at h
  unfold walkMesh at h
  split at h
  · rename_i h2; simp [meshRowOk] at h2; omega
  · simp at h

/-- R60 to R74: `cleared` keeps the mesh monitor sound. -/
theorem cleared_sound (m : Mesh) : Mesh.Sound { m with active := false, misses := [], cursor := Cursor.cleared } := by
  simp [Mesh.Sound, Cursor.cleared]

/-- R60 to R74: `loadCursor` keeps the mesh monitor sound. -/
theorem loadCursor_sound (s : State) (h : s.tables.InRange) (he : examineMesh s.tables s.product = none) :
    (loadCursor s).MeshSound := by
  unfold loadCursor; split
  · rename_i hk
    refine ⟨h, ?_⟩
    have := meshRow_inRange s.tables s.product.startStep h
    unfold MeshRow.InRange at this
    have hb := meshRowOk_band _ _ he hk
    simp [Mesh.Sound, Cursor.load]; omega
  · exact ⟨h, cleared_sound _⟩

/-- R60 to R74: `unsync` keeps the mesh monitor sound. -/
theorem unsync_sound (s : State) (h : s.MeshSound) : (unsync s).MeshSound := by
  obtain ⟨ht, a, b, c, d⟩ := h
  refine ⟨ht, fun hf => ?_, b, fun _ => rfl, d⟩
  have := a hf
  refine ⟨?_, this.2⟩
  simp [unsync, this.1, Cursor.cleared]

/-- R6, R7: an examined product has an examined pattern. -/
theorem examineProduct_mesh (t slot) (h : examineProduct t slot = none) : examineMesh t (t.product slot) = none := by
  unfold examineProduct at h; split at h
  · exact (Option.or_eq_none_iff.1 h).2
  · simp at h

/-- R60 to R74: `enterThreading` keeps the mesh monitor sound. -/
theorem enterThreading_sound (s : State) (h : s.MeshSound) (he : s.examineAll = none) :
    (enterThreading s).MeshSound := by
  have hm : examineMesh s.tables s.product = none := by
    unfold State.examineAll at he
    exact examineProduct_mesh _ _ (Option.or_eq_none_iff.1 (Option.or_eq_none_iff.1 he).1).2
  have H : (enterThreadingMesh (enterThreadingHeads { s with mode := .threading })).MeshSound := by
    unfold enterThreadingMesh; split
    · split
      · exact unsync_sound _ h
      · exact loadCursor_sound _ h.1 hm
    · split
      · exact loadCursor_sound _ h.1 hm
      · exact h
  unfold enterThreading; dsimp only; split
  · exact H
  · exact .of_view (s := enterThreadingMesh (enterThreadingHeads { s with mode := .threading })) (by simp [meshView]) H

/-- R60 to R74: `carryOut` keeps the mesh monitor sound. -/
theorem carryOut_sound (r) (s : State) (h : s.MeshSound) : (carryOut r s).1.MeshSound := by
  cases r with
  | writeFields t row pairs =>
    simp only [carryOut, writeFieldsRequest]; repeat' split
    all_goals first
      | exact h
      | exact ⟨writeRow_inRange _ _ _ _ _ ‹_› h.1 ‹_›, h.2⟩
  | setMode m =>
    simp only [carryOut, setModeRequest, setModeParked, setModeThreading, setModeRun, tryThreading]
    repeat' split
    all_goals first
      | exact h
      | exact enterThreading_sound _ h ‹_›
  | setProduct slot =>
    simp only [carryOut, setProductRequest]; repeat' split
    · exact h
    · exact h
    · rename_i he
      unfold productStart
      refine .of_view (s := loadCursor (productStartHeads (setOpenProduct { s with coil.current := Fin.ofNat 8 slot.toNat }))) (by simp [meshView]) ?_
      exact loadCursor_sound _ h.1 (examineProduct_mesh _ _ he)
    · exact h
  | release =>
    simp only [carryOut, releaseRequest]; repeat' split
    · exact h
    · exact h
    · unfold releaseLine releaseMesh; split
      · exact unsync_sound _ h
      · exact h
  | _ => exact .of_view (s := s) (by simp [meshView, carryOut, resetRequested]) h

/-- R60 to R74: `takeRequest` keeps the mesh monitor sound. -/
theorem takeRequest_sound (f) (s : State) (h : s.MeshSound) : (takeRequest f s).MeshSound := by
  unfold takeRequest; refine .of_view (s := (perform f.payload (reserveEntry s)).1) (by simp [meshView]) ?_
  unfold perform; repeat' split
  · exact h
  · exact carryOut_sound _ _ h
  · exact h

/-- R60 to R74: `handMreq` keeps the mesh monitor sound. -/
theorem handMreq_sound (f) (s : State) (h : s.MeshSound) : (handMreq f s).MeshSound := by
  unfold handMreq; repeat' split
  · exact .of_view (s := s) (by simp [meshView]) h
  · exact takeRequest_sound _ _ h
  · exact h

/-- R60 to R74: `takeHeld` keeps the mesh monitor sound. -/
theorem takeHeld_sound (s : State) (h : s.MeshSound) : (takeHeld s).MeshSound := by
  unfold takeHeld; split
  · exact h
  · rename_i f _; exact takeRequest_sound f _ h

/-- R60 to R74: `chooseProduct` keeps the mesh monitor sound. -/
theorem chooseProduct_sound (s : State) (h : s.MeshSound) : (chooseProduct s).MeshSound := by
  unfold chooseProduct; split
  · exact h
  · rename_i slot hn
    split
    · rename_i hc
      simp [State.changesOver, hn] at hc
      exact loadCursor_sound _ h.1 (examineProduct_mesh _ _ hc)
    · exact h

/-- R60 to R74: `cutdoneReceived` keeps the mesh monitor sound. -/
theorem cutdoneReceived_sound (p) (s : State) (h : s.MeshSound) : (cutdoneReceived p s).MeshSound := by
  have key : ∀ L k c, (openNewCoil L k (closeOpenCoil c s)).MeshSound := by
    intro L k c
    unfold openNewCoil; dsimp only
    refine .of_view (s := chooseProduct (makeOpenCoil L (closeOpenCoil c s))) ?_ (chooseProduct_sound _ (.of_view (s := s) (by simp [meshView]) h))
    unfold presetAtOpen; split <;> simp [meshView]
  unfold cutdoneReceived closeAndOpen; repeat' split
  · exact h
  · dsimp only; split
    · have K := key (min (numberAt p 3 2) s.coil.openCoil.length) (movedDefects (s.coil.openCoil.length - min (numberAt p 3 2) s.coil.openCoil.length) s.coil.openCoil.defects) (s.coil.openCoil.length - min (numberAt p 3 2) s.coil.openCoil.length)
      exact .of_view (by simp only [meshView, raise_keeps]) K
    · exact key _ _ _
  · exact .of_view (s := s) (by simp [meshView]) h

/-- R60 to R74: `classify` keeps the mesh monitor sound. -/
theorem classify_sound (p f) (s : State) (h : s.MeshSound) : (classify p f s).MeshSound := by
  have h' : (countConsumed s).MeshSound := .of_view (s := s) rfl h
  refine classify_cases (handMreq_sound _ _ h') (.of_view (s := s) rfl h) (.of_view (s := s) (by simp [meshView]) h)
    (forOwn_cases (.of_view (s := s) (by simp [meshView]) h) (.of_view (s := s) rfl h)
      (.of_view (s := s) (by simp [meshView]) h) (handMreq_sound _ _ h') (cutdoneReceived_sound _ _ h')
      (.of_view (s := s) (by simp [meshView]) h) (.of_view (s := s) (by simp [meshView]) h))
    (.of_view (s := tap (s.stationOf f.src) f s) (by simp [meshView]) ?_)
  unfold tap; split
  · exact .of_view (s := s) (by simp [meshView]) h
  · exact .of_view (s := s) (by simp [meshView]) h
  · exact rowdoneReceived_sound _ _ h
  · exact h

/-- R60 to R74: `arrive` keeps the mesh monitor sound. -/
theorem arrive_sound (p f) (s : State) (h : s.MeshSound) : (arrive p f s).MeshSound :=
  classify_sound _ _ _ (.of_view (s := s) (by simp [meshView]) h)

/-- R60 to R74: `endArrival` keeps the mesh monitor sound. -/
theorem endArrival_sound (s : State) (h : s.MeshSound) : (endArrival s).MeshSound := .of_view (s := s) rfl h

/-- R60 to R74: `characterReceived` keeps the mesh monitor sound. -/
theorem characterReceived_sound (p c) (s : State) (h : s.MeshSound) : (characterReceived p c s).MeshSound := by
  unfold characterReceived goodReceived fillReceived storeCharacter frameComplete
  dsimp only
  repeat' split
  all_goals first
    | exact endArrival_sound _ (arrive_sound _ _ _ (.of_view (s := s) (by simp [meshView]) h))
    | (refine State.MeshSound.of_view (s := s) ?_ h; simp [meshView])

/-- R62: a cleared monitor is sound. -/
theorem reset_sound (s : State) (h : s.tables.InRange) (hm : s.mesh = Mesh.cleared) : s.MeshSound :=
  ⟨h, by rw [hm]; exact cleared_sound Mesh.cleared⟩

/-- R60 to R74: `departure` keeps the mesh monitor sound. -/
theorem departure_sound (p) (s : State) (h : s.MeshSound) : (departure p s).MeshSound := by
  unfold departure departs; split
  · exact h
  · rename_i hd _
    have hrel : (releaseDeparted p hd (s.countPort p (fun c => { c with framesSent := bump c.framesSent }))).MeshSound := .of_view (s := s) (by simp [meshView]) h
    dsimp only; split
    · exact .of_view (s := s) (by simp [meshView]) h
    · unfold finishU; split
      · exact reset_sound _ hrel.1 rfl
      · rename_i m _ _
        have K := takeHeld_sound (reportMark m (releaseDeparted .u hd (s.countPort .u (fun c => { c with framesSent := bump c.framesSent })))) (.of_view (by simp [meshView]) hrel)
        exact .of_view (by simp [meshView, departedInjU, emptyStage]) K
      · exact .of_view (s := s) (by simp [meshView]) h
      · exact .of_view (s := s) (by simp [meshView]) h

/-- R60 to R74: `mreqReceived` keeps the mesh monitor sound. -/
theorem mreqReceived_sound (p a b) (s : State) (h : s.MeshSound) : (mreqReceived p a b s).MeshSound := by
  unfold mreqReceived
  exact withSlot_ind _ _ _ (.of_view (s := s) (by simp [meshView]) h) fun _ => endArrival_sound _
    (handMreq_sound _ _ (.of_view (s := s) (by simp [meshView]) h))
end Sys2Proof.Machine
end

