-- ==== Sys2Proof/Laws/Occurrences.lean ====
section
/-! SUPPORT. What fault dispatch makes of one occurrence (R124 to R127). -/

namespace Sys2Proof.Machine

/-- R124: an occurrence of no defect kind adds no defect. -/
theorem handDefect_of_not (o : Occurrence) (s : State) (h : o.kind.isDefect = false) : handDefect o s = s := by
  simp [handDefect, h]

/-- R124: with class NOTE the count and the defect are all. -/
theorem handle_note (o : Occurrence) (s : State) (h : s.tables.faultClass o.kind = .note) :
    handle o s = handDefect o (countOccurrence o.kind s) := by
  unfold handle
  dsimp only
  rw [if_pos]
  simpa using h

/-- R124: with another class the occurrence is entered and the request of its class made. -/
theorem handle_class (o : Occurrence) (s : State) (h : s.tables.faultClass o.kind ≠ .note) :
    handle o s = modeRequest (s.tables.faultClass o.kind) (enterOccurrence o (s.tables.faultClass o.kind)
      (handDefect o (countOccurrence o.kind s))) := by
  unfold handle
  dsimp only
  have e : (handDefect o (countOccurrence o.kind s)).tables.faultClass o.kind = s.tables.faultClass o.kind := by simp
  rw [e, if_neg h]

/-- R86: a defect changes no fault list. -/
@[simp] theorem handDefect_faults (o : Occurrence) (s : State) : (handDefect o s).faults = s.faults := by
  unfold handDefect; split <;> rfl

/-- R124: the counter of the kind counts. -/
theorem handle_counters (o : Occurrence) (s : State) :
    (handle o s).faults.counters = s.faults.counters.modify (o.kind.number - 1) bump := by
  by_cases h : s.tables.faultClass o.kind = .note
  · rw [handle_note o s h]; simp [countOccurrence]
  · rw [handle_class o s h]; simp [countOccurrence]

/-- R124: an occurrence of no defect kind changes no coil. -/
theorem handle_coil (o : Occurrence) (s : State) (hd : o.kind.isDefect = false) : (handle o s).coil = s.coil := by
  by_cases h : s.tables.faultClass o.kind = .note
  · rw [handle_note o s h]; simp [handDefect_of_not _ _ hd, countOccurrence]
  · rw [handle_class o s h]; simp [handDefect_of_not _ _ hd, countOccurrence]

/-- R124: the coil job changes by the defect alone. -/
theorem handle_coil_eq (o : Occurrence) (s : State) : (handle o s).coil = (handDefect o s).coil := by
  by_cases h : s.tables.faultClass o.kind = .note
  · rw [handle_note o s h]; unfold handDefect; split <;> rfl
  · rw [handle_class o s h]; simp only [modeRequest_keeps, enterOccurrence_keeps]; unfold handDefect; split <;> rfl

/-- R88: the points of a record after a defect. -/
theorem addDefect_points (c : CoilRecord) (k : FaultKind) (src : Option Nat) (o x points : Nat) :
    (c.addDefect k src o x points).points = satAdd 4294967295 c.points points := by
  unfold CoilRecord.addDefect; dsimp only; repeat' split
  all_goals rfl

/-- R12, R13, R124: the mode after an occurrence, by its class. -/
theorem handle_mode (o : Occurrence) (s : State) :
    (handle o s).mode = match s.tables.faultClass o.kind with
      | .note => s.mode
      | .alarm => s.mode
      | .creep => if s.mode = .run then .creep else s.mode
      | .halt => if s.mode = .parked then .parked else .halted := by
  by_cases h : s.tables.faultClass o.kind = .note
  · rw [handle_note o s h, h]; simp
  · rw [handle_class o s h]
    generalize hx : enterOccurrence o (s.tables.faultClass o.kind) (handDefect o (countOccurrence o.kind s)) = x
    have hm : x.mode = s.mode := by rw [← hx]; simp
    cases hc : s.tables.faultClass o.kind
    · exact absurd hc h
    · simp [modeRequest, hm]
    · simp only [modeRequest]
      unfold creepRequest
      rw [← hm]
      split <;> rename_i e <;> simp [e]
    · simp only [modeRequest]
      unfold haltRequest
      rw [← hm]
      split <;> rename_i e <;> simp [e, stopHaulwatch]

/-- R32: a mode request keeps the values of HAULWATCH. -/
theorem modeRequest_watch (c : FaultClass) (s : State) :
    (modeRequest c s).tally.haulwatch.current = s.tally.haulwatch.current
      ∧ (modeRequest c s).tally.haulwatch.preset = s.tally.haulwatch.preset
      ∧ (modeRequest c s).tally.haulwatch.excess = s.tally.haulwatch.excess := by
  cases c
  · exact ⟨rfl, rfl, rfl⟩
  · exact ⟨rfl, rfl, rfl⟩
  · simp only [modeRequest]; unfold creepRequest; split <;> simp
  · simp only [modeRequest]; unfold haltRequest; split <;> simp [stopHaulwatch]

/-- R32: an occurrence keeps the values of HAULWATCH. -/
theorem handle_watch (o : Occurrence) (s : State) :
    (handle o s).tally.haulwatch.current = s.tally.haulwatch.current
      ∧ (handle o s).tally.haulwatch.preset = s.tally.haulwatch.preset
      ∧ (handle o s).tally.haulwatch.excess = s.tally.haulwatch.excess := by
  by_cases h : s.tables.faultClass o.kind = .note
  · rw [handle_note o s h]; simp [countOccurrence]
  · rw [handle_class o s h]
    have := modeRequest_watch (s.tables.faultClass o.kind) (enterOccurrence o (s.tables.faultClass o.kind)
      (handDefect o (countOccurrence o.kind s)))
    simpa [countOccurrence] using this

/-- R130: what the sending examination makes of the fault list and IQU follows from these fields alone. -/
theorem sendAlarms_congr {x y : State} (hf : x.faults = y.faults) (ht : x.tables = y.tables)
    (ho : x.ownAddress = y.ownAddress) (hq : x.store.iqu = y.store.iqu) (hi : x.iquHeld = y.iquHeld) :
    (sendAlarms x).faults = (sendAlarms y).faults ∧ (sendAlarms x).store.iqu = (sendAlarms y).store.iqu := by
  have hs : ∀ l, servedBy l x = servedBy l y := fun l => by unfold servedBy; rw [hi]
  rw [sendAlarms_served, sendAlarms_served, hs, hf]
  unfold alarmsQueued State.alarmEntry State.originate
  dsimp only
  rw [hq, ht, ho, hf]
  exact ⟨rfl, rfl⟩

/-- R124 to R130: what entering an occurrence makes of the fault list and IQU follows from these fields alone. -/
theorem enterOccurrence_congr (o : Occurrence) (c : FaultClass) {x y : State} (hf : x.faults = y.faults)
    (ht : x.tables = y.tables) (ho : x.ownAddress = y.ownAddress) (hq : x.store.iqu = y.store.iqu)
    (hi : x.iquHeld = y.iquHeld) :
    (enterOccurrence o c x).faults = (enterOccurrence o c y).faults
      ∧ (enterOccurrence o c x).store.iqu = (enterOccurrence o c y).store.iqu := by
  unfold enterOccurrence
  rw [hf]
  split
  · exact ⟨rfl, hq⟩
  · split
    · exact sendAlarms_congr rfl ht ho hq hi
    · exact ⟨rfl, hq⟩

/-- R12, R13: what a mode request makes of the mode and the latch follows from the two alone. -/
theorem modeRequest_congr (c : FaultClass) {x y : State} (hm : x.mode = y.mode)
    (hl : x.store.latchPending = y.store.latchPending) :
    (modeRequest c x).mode = (modeRequest c y).mode
      ∧ (modeRequest c x).store.latchPending = (modeRequest c y).store.latchPending := by
  have set : ∀ (m : SpeedCommand) (a b : State), a.mode = b.mode → a.store.latchPending = b.store.latchPending →
      (a.setLatch m).mode = (b.setLatch m).mode
        ∧ (a.setLatch m).store.latchPending = (b.setLatch m).store.latchPending := by
    intro m a b h1 h2
    unfold State.setLatch
    rw [h2]
    split
    · exact ⟨h1, h2⟩
    · exact ⟨h1, rfl⟩
  cases c
  · exact ⟨hm, hl⟩
  · exact ⟨hm, hl⟩
  · show (creepRequest x).mode = (creepRequest y).mode ∧ _ = _
    unfold modeRequest creepRequest
    dsimp only
    rw [hm]
    split
    · exact set _ _ _ rfl hl
    all_goals exact ⟨hm, hl⟩
  · show (haltRequest x).mode = (haltRequest y).mode ∧ _ = _
    unfold modeRequest haltRequest stopHaulwatch
    dsimp only
    rw [hm]
    split
    · exact set _ _ _ rfl hl
    · exact set _ _ _ rfl hl
    · exact set _ _ _ rfl hl
    · exact set _ _ _ hm hl
    · exact set _ _ _ hm hl

/-- R124: what an occurrence of no defect kind makes of the mode, the fault list, the latch and IQU follows from these
fields alone. -/
theorem raise_congr (k : FaultKind) (src : Option Nat) (count extent : Nat) {x y : State} (hk : k.isDefect = false)
    (hm : x.mode = y.mode) (hf : x.faults = y.faults) (ht : x.tables = y.tables)
    (hh : x.tally.haulTotal = y.tally.haulTotal) (ho : x.ownAddress = y.ownAddress)
    (hq : x.store.iqu = y.store.iqu) (hi : x.iquHeld = y.iquHeld)
    (hl : x.store.latchPending = y.store.latchPending) :
    (raise k src count extent x).mode = (raise k src count extent y).mode
      ∧ (raise k src count extent x).faults = (raise k src count extent y).faults
      ∧ (raise k src count extent x).store.latchPending = (raise k src count extent y).store.latchPending
      ∧ (raise k src count extent x).store.iqu = (raise k src count extent y).store.iqu := by
  have he : occurrence x k src count extent = occurrence y k src count extent := by unfold occurrence; rw [hh]
  unfold raise
  rw [he]
  generalize ho' : occurrence y k src count extent = o
  have hd : o.kind.isDefect = false := by rw [← ho']; exact hk
  have hc : (countOccurrence o.kind x).faults = (countOccurrence o.kind y).faults := by unfold countOccurrence; rw [hf]
  by_cases hn : y.tables.faultClass o.kind = .note
  · rw [handle_note o x (by rw [ht]; exact hn), handle_note o y hn, handDefect_of_not _ _ hd, handDefect_of_not _ _ hd]
    exact ⟨hm, hc, hl, hq⟩
  · rw [handle_class o x (by rw [ht]; exact hn), handle_class o y hn, handDefect_of_not _ _ hd,
      handDefect_of_not _ _ hd, ht]
    obtain ⟨e1, e2⟩ := enterOccurrence_congr o (y.tables.faultClass o.kind)
      (x := countOccurrence o.kind x) (y := countOccurrence o.kind y) hc ht ho hq hi
    obtain ⟨m1, m2⟩ := modeRequest_congr (y.tables.faultClass o.kind)
      (x := enterOccurrence o (y.tables.faultClass o.kind) (countOccurrence o.kind x))
      (y := enterOccurrence o (y.tables.faultClass o.kind) (countOccurrence o.kind y))
      (by simpa using hm) (by simpa using hl)
    refine ⟨m1, ?_, m2, ?_⟩
    · simpa using e1
    · simpa using e2

end Sys2Proof.Machine
end

