-- ==== Sys2Proof/WellFormed.lean ====
section
/-! DEFINITION. Well-formed commands: operands that the field line can carry (log 26). -/

namespace Sys2Proof

/-- R140: a payload holds 0 to 32 characters. -/
def payloadFits (l : List Byte) : Bool := l.length ≤ 32

/-- R21, R24: an amount given to a length counter is positive and no larger than the haul total. -/
def amountFits (n : Nat) : Bool := 0 < n && n ≤ 2147483647

/-- The operands of a command are ones that can occur. A WRITE_FIELDS of more than 5 pairs does not
fit a payload (R206). -/
def Instr.wf : Instr → Bool
  | .arrival _ f => payloadFits f.payload
  | .turns _ pl => payloadFits pl
  | .haul pl => payloadFits pl
  | .rowdone pl => payloadFits pl
  | .cutdone pl => payloadFits pl
  | .take pl => payloadFits pl
  | .packed _ pl => payloadFits pl
  | .mreq _ _ pl => payloadFits pl
  | .writeFields _ _ _ pairs => pairs.length ≤ 5
  | .coilUnderflow n => amountFits n
  | .markUnderflow n => amountFits n
  | .windowEnd n => amountFits n
  | .powerUp => true
  | .pinReset => true
  | .pinResetRelease => true
  | .characterReceived _ _ => true
  | .readRow _ _ _ _ => true
  | .setMode _ _ => true
  | .setProduct _ _ => true
  | .setNext _ _ => true
  | .release _ => true
  | .cut _ => true
  | .clearFault _ _ _ => true
  | .clearAll _ => true
  | .readFaults _ _ _ => true
  | .readCoil _ _ _ => true
  | .readHead _ _ => true
  | .readMesh _ _ => true
  | .readStatus _ _ => true
  | .readCounters _ _ => true
  | .clearCounters _ => true
  | .setAddress _ _ => true
  | .reset _ => true
  | .timeBaseExpiry => true
  | .haulwatchUnderflow => true
  | .cutwaitUnderflow => true
  | .holdInAsserted _ => true
  | .holdInReleased _ => true
  | .transmitStart _ => true
  | .departure _ => true

end Sys2Proof
end

