-- ==== Sys2Proof/Laws/PerInstr.lean ====
section
/-! SUPPORT. Facts about every command as syntax: the payload that carries it fits a frame. -/

/-- The payload that a command comes in (R140); for a request the one its MREQ carries (R206). A command that is
no frame has none. -/
def Sys2Proof.Laws.PayloadFits.payload : Sys2Proof.Instr → List Sys2Proof.Byte
  | .powerUp => []
  | .pinReset => []
  | .pinResetRelease => []
  | .characterReceived _ _ => []
  | .arrival _ f => f.payload
  | .turns _ payload => payload
  | .haul payload => payload
  | .rowdone payload => payload
  | .cutdone payload => payload
  | .take payload => payload
  | .packed _ payload => payload
  | .mreq _ _ payload => payload
  | .readRow _ table row page => Sys2Proof.Machine.Request.encode (.readRow table row page)
  | .writeFields _ table row pairs => Sys2Proof.Machine.Request.encode (.writeFields table row pairs)
  | .setMode _ target => Sys2Proof.Machine.Request.encode (.setMode target)
  | .setProduct _ slot => Sys2Proof.Machine.Request.encode (.setProduct slot)
  | .setNext _ slot => Sys2Proof.Machine.Request.encode (.setNext slot)
  | .release _ => Sys2Proof.Machine.Request.encode (.release)
  | .cut _ => Sys2Proof.Machine.Request.encode (.cut)
  | .clearFault _ kind source => Sys2Proof.Machine.Request.encode (.clearFault kind source)
  | .clearAll _ => Sys2Proof.Machine.Request.encode (.clearAll)
  | .readFaults _ part index => Sys2Proof.Machine.Request.encode (.readFaults part index)
  | .readCoil _ record page => Sys2Proof.Machine.Request.encode (.readCoil record page)
  | .readHead _ unit => Sys2Proof.Machine.Request.encode (.readHead unit)
  | .readMesh _ page => Sys2Proof.Machine.Request.encode (.readMesh page)
  | .readStatus _ page => Sys2Proof.Machine.Request.encode (.readStatus page)
  | .readCounters _ port => Sys2Proof.Machine.Request.encode (.readCounters port)
  | .clearCounters _ => Sys2Proof.Machine.Request.encode (.clearCounters)
  | .setAddress _ address => Sys2Proof.Machine.Request.encode (.setAddress address)
  | .reset _ => Sys2Proof.Machine.Request.encode (.reset)
  | .timeBaseExpiry => []
  | .haulwatchUnderflow => []
  | .cutwaitUnderflow => []
  | .coilUnderflow _ => []
  | .markUnderflow _ => []
  | .windowEnd _ => []
  | .holdInAsserted _ => []
  | .holdInReleased _ => []
  | .transmitStart _ => []
  | .departure _ => []

/-- R140: a well-formed command comes in a payload of at most 32 characters. -/
def Sys2Proof.Laws.PayloadFits.Statement (i : Sys2Proof.Instr) : Prop :=
  i.wf = true → (Sys2Proof.Laws.PayloadFits.payload i).length ≤ 32

/-- R206: the pairs of WRITE_FIELDS take 5 characters each. -/
theorem Sys2Proof.Laws.PayloadFits.encodePairs_length (pairs : List (Sys2Proof.Byte × BitVec 32)) :
    (Sys2Proof.Machine.encodePairs pairs).length = 5 * pairs.length := by
  induction pairs with
  | nil => rfl
  | cons p rest ih =>
    have : (Sys2Proof.Machine.encodePairs (p :: rest)).length = 5 + (Sys2Proof.Machine.encodePairs rest).length := by
      simp [Sys2Proof.Machine.encodePairs, Sys2Proof.Machine.enc4]; omega
    rw [this, ih, List.length_cons]; omega

/-- POWER_UP (R203): the payload fits. -/
theorem Sys2Proof.Laws.PayloadFits.powerUp :
    Sys2Proof.Laws.PayloadFits.Statement (.powerUp) := fun _ => by decide

/-- PIN_RESET (R203): the payload fits. -/
theorem Sys2Proof.Laws.PayloadFits.pinReset :
    Sys2Proof.Laws.PayloadFits.Statement (.pinReset) := fun _ => by decide

/-- PIN_RESET_RELEASE (R203): the payload fits. -/
theorem Sys2Proof.Laws.PayloadFits.pinResetRelease :
    Sys2Proof.Laws.PayloadFits.Statement (.pinResetRelease) := fun _ => by decide

/-- CHARACTER_RECEIVED (R142): the payload fits. -/
theorem Sys2Proof.Laws.PayloadFits.characterReceived (p : Sys2Proof.Port) (c : Sys2Proof.LineChar) :
    Sys2Proof.Laws.PayloadFits.Statement (.characterReceived p c) := fun _ => Nat.le_of_ble_eq_true rfl

/-- ARRIVAL (R178): the payload fits. -/
theorem Sys2Proof.Laws.PayloadFits.arrival (p : Sys2Proof.Port) (f : Sys2Proof.Frame) :
    Sys2Proof.Laws.PayloadFits.Statement (.arrival p f) := by
  intro h
  simpa [Sys2Proof.Laws.PayloadFits.payload, Sys2Proof.Instr.wf, Sys2Proof.payloadFits] using h

/-- TURNS (R41): the payload fits. -/
theorem Sys2Proof.Laws.PayloadFits.turns (unit : Fin 24) (payload : List Sys2Proof.Byte) :
    Sys2Proof.Laws.PayloadFits.Statement (.turns unit payload) := by
  intro h
  simpa [Sys2Proof.Laws.PayloadFits.payload, Sys2Proof.Instr.wf, Sys2Proof.payloadFits] using h

/-- HAUL (R20): the payload fits. -/
theorem Sys2Proof.Laws.PayloadFits.haul (payload : List Sys2Proof.Byte) :
    Sys2Proof.Laws.PayloadFits.Statement (.haul payload) := by
  intro h
  simpa [Sys2Proof.Laws.PayloadFits.payload, Sys2Proof.Instr.wf, Sys2Proof.payloadFits] using h

/-- ROWDONE (R66): the payload fits. -/
theorem Sys2Proof.Laws.PayloadFits.rowdone (payload : List Sys2Proof.Byte) :
    Sys2Proof.Laws.PayloadFits.Statement (.rowdone payload) := by
  intro h
  simpa [Sys2Proof.Laws.PayloadFits.payload, Sys2Proof.Instr.wf, Sys2Proof.payloadFits] using h

/-- CUTDONE (R97): the payload fits. -/
theorem Sys2Proof.Laws.PayloadFits.cutdone (payload : List Sys2Proof.Byte) :
    Sys2Proof.Laws.PayloadFits.Statement (.cutdone payload) := by
  intro h
  simpa [Sys2Proof.Laws.PayloadFits.payload, Sys2Proof.Instr.wf, Sys2Proof.payloadFits] using h

/-- TAKE (R102): the payload fits. -/
theorem Sys2Proof.Laws.PayloadFits.take (payload : List Sys2Proof.Byte) :
    Sys2Proof.Laws.PayloadFits.Statement (.take payload) := by
  intro h
  simpa [Sys2Proof.Laws.PayloadFits.payload, Sys2Proof.Instr.wf, Sys2Proof.payloadFits] using h

/-- PACKED (R104): the payload fits. -/
theorem Sys2Proof.Laws.PayloadFits.packed (src : Sys2Proof.Addr) (payload : List Sys2Proof.Byte) :
    Sys2Proof.Laws.PayloadFits.Statement (.packed src payload) := by
  intro h
  simpa [Sys2Proof.Laws.PayloadFits.payload, Sys2Proof.Instr.wf, Sys2Proof.payloadFits] using h

/-- MREQ (R170): the payload fits. -/
theorem Sys2Proof.Laws.PayloadFits.mreq (p : Sys2Proof.Port) (src : Sys2Proof.Addr) (payload : List Sys2Proof.Byte) :
    Sys2Proof.Laws.PayloadFits.Statement (.mreq p src payload) := by
  intro h
  simpa [Sys2Proof.Laws.PayloadFits.payload, Sys2Proof.Instr.wf, Sys2Proof.payloadFits] using h

/-- READ_ROW (R198): the payload fits. -/
theorem Sys2Proof.Laws.PayloadFits.readRow (src : Sys2Proof.Addr) (table : Sys2Proof.Byte) (row : BitVec 16) (page : Sys2Proof.Byte) :
    Sys2Proof.Laws.PayloadFits.Statement (.readRow src table row page) := fun _ => Nat.le_of_ble_eq_true rfl

/-- WRITE_FIELDS (R196): the payload fits. -/
theorem Sys2Proof.Laws.PayloadFits.writeFields (src : Sys2Proof.Addr) (table : Sys2Proof.Byte) (row : BitVec 16) (pairs : List (Sys2Proof.Byte × BitVec 32)) :
    Sys2Proof.Laws.PayloadFits.Statement (.writeFields src table row pairs) := by
  intro h
  have h5 : pairs.length ≤ 5 := by simpa [Sys2Proof.Instr.wf] using h
  have hl := Sys2Proof.Laws.PayloadFits.encodePairs_length pairs
  simp [Sys2Proof.Laws.PayloadFits.payload, Sys2Proof.Machine.Request.encode, Sys2Proof.Machine.enc1,
    Sys2Proof.Machine.enc2]
  omega

/-- SET_MODE (R3): the payload fits. -/
theorem Sys2Proof.Laws.PayloadFits.setMode (src : Sys2Proof.Addr) (target : Sys2Proof.Byte) :
    Sys2Proof.Laws.PayloadFits.Statement (.setMode src target) := fun _ => Nat.le_of_ble_eq_true rfl

/-- SET_PRODUCT (R110): the payload fits. -/
theorem Sys2Proof.Laws.PayloadFits.setProduct (src : Sys2Proof.Addr) (slot : Sys2Proof.Byte) :
    Sys2Proof.Laws.PayloadFits.Statement (.setProduct src slot) := fun _ => Nat.le_of_ble_eq_true rfl

/-- SET_NEXT (R113): the payload fits. -/
theorem Sys2Proof.Laws.PayloadFits.setNext (src : Sys2Proof.Addr) (slot : Sys2Proof.Byte) :
    Sys2Proof.Laws.PayloadFits.Statement (.setNext src slot) := fun _ => Nat.le_of_ble_eq_true rfl

/-- RELEASE (R15): the payload fits. -/
theorem Sys2Proof.Laws.PayloadFits.release (src : Sys2Proof.Addr) :
    Sys2Proof.Laws.PayloadFits.Statement (.release src) := fun _ => Nat.le_of_ble_eq_true rfl

/-- CUT (R93): the payload fits. -/
theorem Sys2Proof.Laws.PayloadFits.cut (src : Sys2Proof.Addr) :
    Sys2Proof.Laws.PayloadFits.Statement (.cut src) := fun _ => Nat.le_of_ble_eq_true rfl

/-- CLEAR_FAULT (R131): the payload fits. -/
theorem Sys2Proof.Laws.PayloadFits.clearFault (src : Sys2Proof.Addr) (kind : Sys2Proof.Byte) (source : BitVec 16) :
    Sys2Proof.Laws.PayloadFits.Statement (.clearFault src kind source) := fun _ => Nat.le_of_ble_eq_true rfl

/-- CLEAR_ALL (R132): the payload fits. -/
theorem Sys2Proof.Laws.PayloadFits.clearAll (src : Sys2Proof.Addr) :
    Sys2Proof.Laws.PayloadFits.Statement (.clearAll src) := fun _ => Nat.le_of_ble_eq_true rfl

/-- READ_FAULTS (R135): the payload fits. -/
theorem Sys2Proof.Laws.PayloadFits.readFaults (src : Sys2Proof.Addr) (part : Sys2Proof.Byte) (index : Sys2Proof.Byte) :
    Sys2Proof.Laws.PayloadFits.Statement (.readFaults src part index) := fun _ => Nat.le_of_ble_eq_true rfl

/-- READ_COIL (R105): the payload fits. -/
theorem Sys2Proof.Laws.PayloadFits.readCoil (src : Sys2Proof.Addr) (record : Sys2Proof.Byte) (page : Sys2Proof.Byte) :
    Sys2Proof.Laws.PayloadFits.Statement (.readCoil src record page) := fun _ => Nat.le_of_ble_eq_true rfl

/-- READ_HEAD (R56): the payload fits. -/
theorem Sys2Proof.Laws.PayloadFits.readHead (src : Sys2Proof.Addr) (unit : Sys2Proof.Byte) :
    Sys2Proof.Laws.PayloadFits.Statement (.readHead src unit) := fun _ => Nat.le_of_ble_eq_true rfl

/-- READ_MESH (R81): the payload fits. -/
theorem Sys2Proof.Laws.PayloadFits.readMesh (src : Sys2Proof.Addr) (page : Sys2Proof.Byte) :
    Sys2Proof.Laws.PayloadFits.Statement (.readMesh src page) := fun _ => Nat.le_of_ble_eq_true rfl

/-- READ_STATUS (R199): the payload fits. -/
theorem Sys2Proof.Laws.PayloadFits.readStatus (src : Sys2Proof.Addr) (page : Sys2Proof.Byte) :
    Sys2Proof.Laws.PayloadFits.Statement (.readStatus src page) := fun _ => Nat.le_of_ble_eq_true rfl

/-- READ_COUNTERS (R154): the payload fits. -/
theorem Sys2Proof.Laws.PayloadFits.readCounters (src : Sys2Proof.Addr) (port : Sys2Proof.Byte) :
    Sys2Proof.Laws.PayloadFits.Statement (.readCounters src port) := fun _ => Nat.le_of_ble_eq_true rfl

/-- CLEAR_COUNTERS (R154): the payload fits. -/
theorem Sys2Proof.Laws.PayloadFits.clearCounters (src : Sys2Proof.Addr) :
    Sys2Proof.Laws.PayloadFits.Statement (.clearCounters src) := fun _ => Nat.le_of_ble_eq_true rfl

/-- SET_ADDRESS (R200): the payload fits. -/
theorem Sys2Proof.Laws.PayloadFits.setAddress (src : Sys2Proof.Addr) (address : Sys2Proof.Byte) :
    Sys2Proof.Laws.PayloadFits.Statement (.setAddress src address) := fun _ => Nat.le_of_ble_eq_true rfl

/-- RESET (R202): the payload fits. -/
theorem Sys2Proof.Laws.PayloadFits.reset (src : Sys2Proof.Addr) :
    Sys2Proof.Laws.PayloadFits.Statement (.reset src) := fun _ => Nat.le_of_ble_eq_true rfl

/-- TIME_BASE_EXPIRY (R31): the payload fits. -/
theorem Sys2Proof.Laws.PayloadFits.timeBaseExpiry :
    Sys2Proof.Laws.PayloadFits.Statement (.timeBaseExpiry) := fun _ => by decide

/-- HAULWATCH_UNDERFLOW (R32): the payload fits. -/
theorem Sys2Proof.Laws.PayloadFits.haulwatchUnderflow :
    Sys2Proof.Laws.PayloadFits.Statement (.haulwatchUnderflow) := fun _ => by decide

/-- CUTWAIT_UNDERFLOW (R100): the payload fits. -/
theorem Sys2Proof.Laws.PayloadFits.cutwaitUnderflow :
    Sys2Proof.Laws.PayloadFits.Statement (.cutwaitUnderflow) := fun _ => by decide

/-- COIL_UNDERFLOW (R92): the payload fits. -/
theorem Sys2Proof.Laws.PayloadFits.coilUnderflow (amount : Nat) :
    Sys2Proof.Laws.PayloadFits.Statement (.coilUnderflow amount) := fun _ => Nat.le_of_ble_eq_true rfl

/-- MARK_UNDERFLOW (R101): the payload fits. -/
theorem Sys2Proof.Laws.PayloadFits.markUnderflow (amount : Nat) :
    Sys2Proof.Laws.PayloadFits.Statement (.markUnderflow amount) := fun _ => Nat.le_of_ble_eq_true rfl

/-- WINDOW_END (R46): the payload fits. -/
theorem Sys2Proof.Laws.PayloadFits.windowEnd (amount : Nat) :
    Sys2Proof.Laws.PayloadFits.Statement (.windowEnd amount) := fun _ => Nat.le_of_ble_eq_true rfl

/-- HOLD_IN_ASSERTED (R151): the payload fits. -/
theorem Sys2Proof.Laws.PayloadFits.holdInAsserted (p : Sys2Proof.Port) :
    Sys2Proof.Laws.PayloadFits.Statement (.holdInAsserted p) := fun _ => Nat.le_of_ble_eq_true rfl

/-- HOLD_IN_RELEASED (R151): the payload fits. -/
theorem Sys2Proof.Laws.PayloadFits.holdInReleased (p : Sys2Proof.Port) :
    Sys2Proof.Laws.PayloadFits.Statement (.holdInReleased p) := fun _ => Nat.le_of_ble_eq_true rfl

/-- TRANSMIT_START (R149): the payload fits. -/
theorem Sys2Proof.Laws.PayloadFits.transmitStart (p : Sys2Proof.Port) :
    Sys2Proof.Laws.PayloadFits.Statement (.transmitStart p) := fun _ => Nat.le_of_ble_eq_true rfl

/-- DEPARTURE (R150): the payload fits. -/
theorem Sys2Proof.Laws.PayloadFits.departure (p : Sys2Proof.Port) :
    Sys2Proof.Laws.PayloadFits.Statement (.departure p) := fun _ => Nat.le_of_ble_eq_true rfl
end

