-- ==== Sys2Proof/Laws/Requests.lean ====
section
/-! SUPPORT. What a management request that is taken at once answers (R163, R170, R192), and the reading back of requests (R206). -/

namespace Sys2Proof.Machine

/-- R152: where HOLD-OUT follows the free slots, setting it anew changes nothing. -/
theorem setHoldOut_of_follows (s : State) (h : s.HoldOutFollows) : s.setHoldOut = s := by
  obtain ⟨_, _, h⟩ := h
  have : holdOutLevel s.freeForwarding s.tables.line.holdThreshold = s.holdOut := by
    unfold holdOutLevel
    cases hh : s.holdOut <;> simp_all
  unfold State.setHoldOut
  rw [this]

/-- R163, R192: a request whose effect is `t` ends in `t` with its MREP queued. -/
theorem endArrival_answered (t : State) (src : Addr) (r : Reply) (ha : t.store.arriving = false)
    (hr : t.store.reserved = false) (hh : t.setHoldOut = t) :
    endArrival (queueReply src r { t with store.arriving := true, store.reserved := true })
      = t.queueIqu (t.originate src .mrep (r.status :: r.data)) r.mark := by
  have e : t.holdOut = holdOutLevel t.freeForwarding t.tables.line.holdThreshold :=
    (congrArg State.holdOut hh).symm
  have e2 : (t.queueIqu (t.originate src .mrep (r.status :: r.data)) r.mark).freeForwarding = t.freeForwarding := rfl
  unfold endArrival queueReply State.setHoldOut State.queueIqu State.originate
  simp only [State.freeForwarding, State.heldForwarding] at e ⊢
  rw [ha] at e
  rw [e]
  congr 1
  congr 1 <;> simp [ha, hr]

/-- R170: with no request held and room in IQU an MREQ is taken. -/
theorem handMreq_taken (f : Frame) (s : State) (hh : s.store.hold = none) (hi : s.iquHeld < 4) :
    handMreq f s = takeRequest f s := by
  have hroom : s.iquRoom = true := by simpa [State.iquRoom] using hi
  unfold handMreq
  rw [hh, hroom]
  rfl

/-- R153, R180: counting a frame leaves whether the part takes the next one. -/
theorem frameConsumed_takes (p : Port) (s : State) (h : s.TakesFrames) : (s.frameConsumed p).TakesFrames := by
  cases p <;> exact h

/-- R170, R193: an MREQ that is taken at once is performed and answered. -/
theorem mreqReceived_taken (p : Port) (src : Addr) (pl : List Byte) (s : State) (h : s.TakesFrames)
    (hh : s.store.hold = none) (hi : s.iquHeld < 4) :
    mreqReceived p src pl s = endArrival (queueReply src
      (perform pl { s.frameConsumed p with store.arriving := true, store.reserved := true }).2
      (perform pl { s.frameConsumed p with store.arriving := true, store.reserved := true }).1) := by
  have hf0 : ¬ s.freeForwarding = 0 := by have := h.2.1; omega
  have he : ({ s with store.arriving := true } : State).frameConsumed p
      = { s.frameConsumed p with store.arriving := true } := by cases p <;> rfl
  unfold mreqReceived withSlot
  rw [if_neg hf0]
  dsimp only
  rw [he, handMreq_taken (mreqFrame s src pl) _ (by cases p <;> exact hh) (by cases p <;> exact hi)]
  rfl

/-- R206: a request is its MREQ on Port U (log 4). -/
theorem requestMade_mreq (src : Addr) (r : Request) (s : State) : requestMade src r s = exec (.mreq .u src r.encode) s :=
  rfl

/-- R170, R193: a request in an MREQ taken at once is performed and answered. -/
theorem requestMade_performed (src : Addr) (q : Request) (s : State) (h : s.TakesRequests) :
    requestMade src q s = .next (endArrival (queueReply src
      (perform q.encode { s.frameConsumed .u with store.arriving := true, store.reserved := true }).2
      (perform q.encode { s.frameConsumed .u with store.arriving := true, store.reserved := true }).1)) := by
  unfold requestMade
  rw [whenWorking_of_released _ _ h.1.1.1, mreqReceived_taken _ _ _ _ h.1 h.2.1 h.2.2]

/-- R193: a request available in the mode, taken at once, is carried out and answered. -/
theorem requestMade_taken (src : Addr) (q : Request) (s : State) (h : s.TakesRequests)
    (hp : parseRequest q.encode = some q) (ha : q.availableIn s.mode = true) :
    requestMade src q s = .next (endArrival (queueReply src
      (carryOut q { s.frameConsumed .u with store.arriving := true, store.reserved := true }).2
      (carryOut q { s.frameConsumed .u with store.arriving := true, store.reserved := true }).1)) := by
  rw [requestMade_performed src q s h]
  unfold perform
  rw [hp]
  dsimp only
  rw [if_pos (by simpa using ha)]

/-- R163, R192: a request taken at once that leaves `t` ends in `t` with its reply queued. -/
theorem answered_of_follows (s t : State) (src : Addr) (r : Reply) (h : s.TakesRequests)
    (ht : t.store.arriving = s.store.arriving ∧ t.store.reserved = s.store.reserved ∧ t.setHoldOut = t) :
    endArrival (queueReply src r { t with store.arriving := true, store.reserved := true })
      = t.queueIqu (t.originate src .mrep (r.status :: r.data)) r.mark :=
  endArrival_answered t src r (ht.1.trans h.1.1.2.1) (ht.2.1.trans h.1.1.2.2.1) ht.2.2

/-- R193, R194: a request not available in the mode is answered NOT_IN_MODE. -/
theorem requestMade_notInMode (src : Addr) (q : Request) (s : State) (h : s.TakesRequests)
    (hp : parseRequest q.encode = some q) (ha : q.availableIn s.mode = false) :
    requestMade src q s = .next (s.answered src [4]) := by
  rw [requestMade_performed src q s h]
  unfold perform
  rw [hp]
  dsimp only
  rw [if_neg (by simp [ha])]
  exact congrArg _ (answered_of_follows s _ src _ h
    ⟨rfl, rfl, setHoldOut_of_follows _ (frameConsumed_takes .u s h.1).2.2⟩)

/-- R193: a request whose effect is `t` ends in `t` with its reply queued. -/
theorem requestMade_answered (src : Addr) (q : Request) (s t : State) (r : Reply) (h : s.TakesRequests)
    (hp : parseRequest q.encode = some q) (ha : q.availableIn s.mode = true)
    (hc : carryOut q { s.frameConsumed .u with store.arriving := true, store.reserved := true }
      = ({ t with store.arriving := true, store.reserved := true }, r))
    (h1 : t.store.arriving = false) (h2 : t.store.reserved = false) (h3 : t.setHoldOut = t) :
    requestMade src q s = .next (t.queueIqu (t.originate src .mrep (r.status :: r.data)) r.mark) := by
  rw [requestMade_taken src q s h hp ha, hc]
  exact congrArg _ (endArrival_answered t src r h1 h2 h3)

/-- R193: a request that changes nothing is answered. -/
theorem requestMade_kept (src : Addr) (q : Request) (s : State) (st : Byte) (data : List Byte) (h : s.TakesRequests)
    (hp : parseRequest q.encode = some q) (ha : q.availableIn s.mode = true)
    (hc : carryOut q { s.frameConsumed .u with store.arriving := true, store.reserved := true }
      = ({ s.frameConsumed .u with store.arriving := true, store.reserved := true },
          { status := st, data := data, mark := .plain })) :
    requestMade src q s = .next (s.answered src (st :: data)) :=
  requestMade_answered src q s _ _ h hp ha hc h.1.1.2.1 h.1.1.2.2.1
    (setHoldOut_of_follows _ (frameConsumed_takes .u s h.1).2.2)

/-- R204: two characters hold a 16-bit number. -/
theorem ofNat_toNat16 (x : BitVec 16) : BitVec.ofNat 16 (numberOf [BitVec.ofNat 8
    (x.toNat / 256), BitVec.ofNat 8 x.toNat]) = x := by
  apply BitVec.eq_of_toNat_eq
  simp [numberOf]
  omega

/-- R204: four characters hold a 32-bit number. -/
theorem ofNat_toNat32 (x : BitVec 32) : BitVec.ofNat 32 (numberOf [BitVec.ofNat 8 (x.toNat / 16777216),
   BitVec.ofNat 8 (x.toNat / 65536), BitVec.ofNat 8 (x.toNat / 256), BitVec.ofNat 8 x.toNat]) = x := by
  apply BitVec.eq_of_toNat_eq
  simp [numberOf]
  omega

/-- R206: the pairs of WRITE_FIELDS are read back, characters beyond them disregarded. -/
theorem parsePairs_encodePairs (ps : List (Byte × BitVec 32)) (extra : List Byte) :
    parsePairs ps.length (encodePairs ps ++ extra) = some ps := by
  induction ps with
  | nil => rfl
  | cons p ps ih =>
    have : encodePairs (p :: ps) ++ extra = p.1 :: BitVec.ofNat 8 (p.2.toNat / 16777216)
      :: BitVec.ofNat 8 (p.2.toNat / 65536) :: BitVec.ofNat 8 (p.2.toNat / 256) :: BitVec.ofNat 8 p.2.toNat
      :: (encodePairs ps ++ extra) := rfl
    rw [this]
    simp only [List.length_cons, parsePairs, ih, Option.map_some, ofNat_toNat32]

/-- R193: pairs need 5 characters each. -/
theorem parsePairs_short (n : Nat) (l : List Byte) (h : l.length < 5 * n) : parsePairs n l = none := by
  induction n generalizing l with
  | zero => omega
  | succ n ih =>
    unfold parsePairs
    split
    · omega
    · next he =>
      simp only [List.length_cons] at h
      obtain rfl := Nat.succ.inj he
      rw [ih _ (by omega)]
      rfl
    · rfl

/-- R193, R206: a WRITE_FIELDS payload of 1 to 5 pairs, with any characters after them. -/
theorem parse_writeFields (t : Byte) (row : BitVec 16) (ps : List (Byte × BitVec 32)) (extra : List Byte)
    (h5 : ps.length ≤ 5) :
    parseRequest ((Request.writeFields t row ps).encode ++ extra) =
      if ps ≠ [] ∧ (ps.map Prod.fst).Nodup then some (.writeFields t row ps) else none := by
  have e : (Request.writeFields t row ps).encode ++ extra = 2 :: t :: BitVec.ofNat 8 (row.toNat / 256)
     :: BitVec.ofNat 8 row.toNat :: BitVec.ofNat 8 ps.length :: (encodePairs ps ++ extra) := rfl
  have hl : (BitVec.ofNat 8 ps.length).toNat = ps.length := by simp; omega
  rw [e]
  simp only [parseRequest]
  show parseWriteFields _ _ _ _ _ = _
  cases ps with
  | nil => rfl
  | cons p ps =>
    have hx : ¬ ((p :: ps).length = 0 ∨ 5 < (p :: ps).length) := by simp only [List.length_cons] at h5 ⊢; omega
    simp only [parseWriteFields, hl, hx, if_false, parsePairs_encodePairs, ofNat_toNat16]
    simp

/-- R193, R206: every request is read back from its payload, characters beyond its parameters disregarded. -/
theorem parse_encode_extra (r : Request) (extra : List Byte)
    (h : ∀ t row ps, r = .writeFields t row ps → ps ≠ [] ∧ ps.length ≤ 5 ∧ (ps.map Prod.fst).Nodup) :
    parseRequest (r.encode ++ extra) = some r := by
  cases r with
  | writeFields t row ps =>
    obtain ⟨a, b, c⟩ := h _ _ _ rfl
    rw [parse_writeFields t row ps extra b, if_pos ⟨a, c⟩]
  | readRow t row p =>
    have : (Request.readRow t row p).encode ++ extra
        = 1 :: t :: BitVec.ofNat 8 (row.toNat / 256) :: BitVec.ofNat 8 row.toNat :: p :: extra := rfl
    rw [this]
    simp only [parseRequest]
    rw [show ((1 : Byte).toNat) = 1 from rfl]
    simp only [ofNat_toNat16, List.headD]
  | clearFault k row =>
    have : (Request.clearFault k row).encode ++ extra
        = 8 :: k :: BitVec.ofNat 8 (row.toNat / 256) :: BitVec.ofNat 8 row.toNat :: extra := rfl
    rw [this]
    simp only [parseRequest]
    rw [show ((8 : Byte).toNat) = 8 from rfl]
    simp only [ofNat_toNat16]
  | _ => rfl

/-- R206: every request is read back from its payload. -/
theorem parse_encode (r : Request)
    (h : ∀ t row ps, r = .writeFields t row ps → ps ≠ [] ∧ ps.length ≤ 5 ∧ (ps.map Prod.fst).Nodup) :
    parseRequest r.encode = some r := by
  have := parse_encode_extra r [] h
  rwa [List.append_nil] at this

/-! ## Payloads that are no request (R193) -/

/-- R193: a code that names no request. -/
theorem parse_unnamed (code : Byte) (rest : List Byte) (h : code.toNat = 0 ∨ 18 < code.toNat) :
    parseRequest (code :: rest) = none := by
  simp only [parseRequest]
  split <;> first | rfl | simp_all

/-- R193: a WRITE_FIELDS payload with a wrong pair count or too few characters for its pairs. -/
theorem parse_miscounted (t a b count : Byte) (rest : List Byte)
    (h : count.toNat = 0 ∨ 5 < count.toNat ∨ rest.length < 5 * count.toNat) :
    parseRequest (2 :: t :: a :: b :: count :: rest) = none := by
  show parseWriteFields t a b count rest = none
  unfold parseWriteFields
  split
  · rfl
  · rw [parsePairs_short _ _ (by omega)]

end Sys2Proof.Machine
end

