-- ==== Sys2Proof/Laws/TableFields.lean ====
section
/-! SUPPORT. What a write of fields does to a table row, said of the row as READ_ROW shows it (R195, R196, R207):
which values each field takes, and that nothing else of the tables changes. -/

namespace Sys2Proof.Machine

/-- Where a write is answered or refused: it gives none exactly when it is not allowed, else a result as wanted. -/
def Writes {α : Type} (o : Option α) (allowed : Prop) (wanted : α → Prop) : Prop :=
  match o with
  | none => ¬allowed
  | some x => allowed ∧ wanted x

/-- A result changed by a function. -/
theorem Writes.map {α β : Type} {o : Option α} {p q : Prop} {w : α → Prop} {w' : β → Prop} {g : α → β}
    (h : Writes o p w) (hp : p ↔ q) (hw : ∀ x, p → w x → w' (g x)) : Writes (o.map g) q w' := by
  cases o with
  | none => exact fun e => h (hp.2 e)
  | some x => exact ⟨hp.1 h.1, hw x h.1 h.2⟩

/-- A write that is allowed gives a result as wanted. -/
theorem Writes.of_allowed {α : Type} {o : Option α} {p : Prop} {w : α → Prop} (h : Writes o p w) (hp : p) :
    ∃ x, o = some x ∧ w x := by
  cases o with
  | none => exact absurd hp h
  | some x => exact ⟨x, rfl, h.2⟩

/-- A write that is not allowed gives none. -/
theorem Writes.of_not_allowed {α : Type} {o : Option α} {p : Prop} {w : α → Prop} (h : Writes o p w) (hp : ¬p) :
    o = none := by
  cases o with
  | none => rfl
  | some x => exact absurd h.1 hp

/-! ## Values (R195, R204) -/

/-- R195: a value of a range. -/
theorem inRange_writes (lo hi v : Nat) : Writes (inRange lo hi v) (lo ≤ v ∧ v ≤ hi) (· = v) := by
  unfold inRange; split
  · exact ⟨by assumption, rfl⟩
  · assumption

/-- R195: a mark interval. -/
theorem inMarkInterval_writes (v : Nat) : Writes (inMarkInterval v) (v = 0 ∨ 100 ≤ v ∧ v ≤ 65535) (· = v) := by
  unfold inMarkInterval inRange; split
  · exact ⟨.inl ‹_›, by omega⟩
  · split
    · exact ⟨.inr ‹_›, rfl⟩
    · show ¬_; omega

/-- R204: a widening, as two's complement. -/
theorem inWiden_writes (v : Nat) (h : v < 4294967296) :
    Writes (inWiden v) (v ≤ 2 ∨ 4294967294 ≤ v ∧ v ≤ 4294967295) (· = signedOf 4 v) := by
  unfold inWiden; dsimp only
  have hs : (-2 ≤ signedOf 4 v ∧ signedOf 4 v ≤ 2) ↔ (v ≤ 2 ∨ 4294967294 ≤ v ∧ v ≤ 4294967295) := by
    unfold signedOf; split <;> omega
  split
  · exact ⟨hs.1 ‹_›, rfl⟩
  · exact fun e => ‹¬_› (hs.2 e)

/-- R204: a next step, or HOLD. -/
theorem inMeshNext_writes (v : Nat) : Writes (inMeshNext v) (0 ≤ v ∧ v ≤ 64) (fun x => meshNextCode x = v) := by
  unfold inMeshNext; split
  · exact ⟨by omega, Nat.mod_eq_of_lt (by assumption)⟩
  · split
    · exact ⟨by omega, Eq.symm (by assumption)⟩
    · show ¬_; omega

/-- R204: a yes or no. -/
theorem boolOfCode_writes (v : Nat) : Writes (boolOfCode v) (0 ≤ v ∧ v ≤ 1) (fun x => boolCode x = v) := by
  match v with
  | 0 => exact ⟨by omega, rfl⟩
  | 1 => exact ⟨by omega, rfl⟩
  | k + 2 => show ¬_; omega

/-- R204: a role. -/
theorem role_writes (v : Nat) : Writes (Role.ofCode v) (0 ≤ v ∧ v ≤ 7) (fun x => x.code = v) := by
  match v with
  | 0 => exact ⟨by omega, rfl⟩
  | 1 => exact ⟨by omega, rfl⟩
  | 2 => exact ⟨by omega, rfl⟩
  | 3 => exact ⟨by omega, rfl⟩
  | 4 => exact ⟨by omega, rfl⟩
  | 5 => exact ⟨by omega, rfl⟩
  | 6 => exact ⟨by omega, rfl⟩
  | 7 => exact ⟨by omega, rfl⟩
  | k + 8 => show ¬_; omega

/-- R204: a side. -/
theorem port_writes (v : Nat) : Writes (portOfCode v) (0 ≤ v ∧ v ≤ 1) (fun x => portCode x = v) := by
  match v with
  | 0 => exact ⟨by omega, rfl⟩
  | 1 => exact ⟨by omega, rfl⟩
  | k + 2 => show ¬_; omega

/-- R204: a product kind. -/
theorem productKind_writes (v : Nat) : Writes (ProductKind.ofCode v) (0 ≤ v ∧ v ≤ 1) (fun x => x.code = v) := by
  match v with
  | 0 => exact ⟨by omega, rfl⟩
  | 1 => exact ⟨by omega, rfl⟩
  | k + 2 => show ¬_; omega

/-- R204: a direction. -/
theorem direction_writes (v : Nat) : Writes (Direction.ofCode v) (0 ≤ v ∧ v ≤ 1) (fun x => x.code = v) := by
  match v with
  | 0 => exact ⟨by omega, rfl⟩
  | 1 => exact ⟨by omega, rfl⟩
  | k + 2 => show ¬_; omega

/-! ## One field (R195, R196, R207) -/

/-- Whether the listed ranges, in field order, allow a value in a field. -/
def fieldAllowed (ranges : List (Nat → Prop)) (field v : Nat) : Prop :=
  match ranges[field]? with
  | some ok => ok v
  | none => False

/-- Allowed is: the field has a range, and the range holds the value. -/
theorem fieldAllowed_iff (ranges : List (Nat → Prop)) (field v : Nat) :
    fieldAllowed ranges field v ↔ ∃ ok, ranges[field]? = some ok ∧ ok v := by
  unfold fieldAllowed; split <;> simp_all

/-- A field the row does not have takes no value. -/
theorem fieldAllowed_beyond {ranges : List (Nat → Prop)} {field : Nat} (v : Nat) (h : ranges.length ≤ field) :
    ¬fieldAllowed ranges field v := by
  unfold fieldAllowed; rw [List.getElem?_eq_none h]; exact id

/-- One field of a row written: allowed exactly within its range, and the row then shows the value there. -/
def FieldsAs {α : Type} (setField : α → Nat → Nat → Option α) (fields : α → List Int)
    (ranges : List (Nat → Prop)) (shown : Nat → Nat → Int) : Prop :=
  ∀ r f v, v < 4294967296 →
    Writes (setField r f v) (fieldAllowed ranges f v) (fun r' => fields r' = (fields r).set f (shown f v))

/-- R195: the ranges of a row's fields, in field order. -/
def fieldRanges (name : TableName) (row : Nat) : List (Nat → Prop) :=
  let between (lo hi v : Nat) : Prop := lo ≤ v ∧ v ≤ hi
  let flag := between 0 1
  let count16 := between 0 65535
  let widen (v : Nat) : Prop := v ≤ 2 ∨ between 4294967294 4294967295 v
  match name with
  | .line => [fun _ => False, flag, flag, between 1 12, between 10 60000, between 10 60000, count16, count16]
  | .stations => [between 0 7, between 0 23, flag]
  | .actions => [fun v => v ≤ 2 ∧ (v = 1 → row = 8)]
  | .products => [flag, between 1 65535, flag, between 1 8, between 5 200, between 5 500, between 1 8,
      between 0 1023, between 100 10000000, count16, count16, fun v => v = 0 ∨ between 100 65535 v,
      between 50 65535, count16, count16, between 0 63, count16, between 0 1000, between 2 15, count16, count16,
      count16]
  | .lays => [flag, flag, between 1 20000, between 1000 2000]
  | .mesh => [flag, between 1 4095, between 0 511, between 0 511, widen, widen, between 1 255, between 0 8,
      between 0 15, between 0 64]
  | .faults => [fun v => v ≤ 3 ∧ row ≠ 1 ∧ row ≠ 15]

/-- R207: a field's value as the row shows it: widen left and widen right are signed. -/
def fieldShown (name : TableName) (field v : Nat) : Int :=
  if name = .mesh ∧ (field = 4 ∨ field = 5) then signedOf 4 v else v

/-- R195: the line settings. -/
theorem line_fieldsAs (own : Addr) (row : Nat) :
    FieldsAs LineSettings.setField (lineFields own) (fieldRanges .line row) (fieldShown .line) := by
  intro l f v _
  unfold LineSettings.setField
  split
  case h_8 =>
    match f with
    | 0 => exact id
    | n + 8 => exact fieldAllowed_beyond v (by show 8 ≤ n + 8; omega)
  all_goals first
    | exact (boolOfCode_writes v).map Iff.rfl (fun x _ hx => by subst hx; rfl)
    | exact (inRange_writes _ _ v).map Iff.rfl (fun x _ hx => by subst hx; rfl)

/-- R176: a station map row. -/
theorem station_fieldsAs (row : Nat) :
    FieldsAs StationRow.setField stationFields (fieldRanges .stations row) (fieldShown .stations) := by
  intro r f v _
  unfold StationRow.setField
  split
  · exact (role_writes v).map Iff.rfl (fun x _ hx => by subst hx; rfl)
  · refine (inRange_writes _ _ v).map Iff.rfl (fun x hv hx => ?_)
    subst hx
    show [_, ((x % 24 : Nat) : Int), _] = _
    rw [Nat.mod_eq_of_lt (by omega)]; rfl
  · exact (port_writes v).map Iff.rfl (fun x _ hx => by subst hx; rfl)
  · match f with
    | n + 3 => exact fieldAllowed_beyond v (by show 3 ≤ n + 3; omega)

/-- R185: an action table entry. -/
theorem action_fieldsAs (row : Nat) :
    FieldsAs (setActionField row) (fun a => [(a.code : Int)]) (fieldRanges .actions row) (fieldShown .actions) := by
  intro r f v _
  unfold setActionField
  match f with
  | n + 1 => exact fieldAllowed_beyond v (by show 1 ≤ n + 1; omega)
  | 0 =>
    match v with
    | 0 => exact ⟨⟨by omega, by omega⟩, rfl⟩
    | 1 =>
      show Writes (if Action.clamp = .clamp ∧ row ≠ 8 then none else some _) _ _
      by_cases hc : row = 8
      · rw [if_neg (fun e => e.2 hc)]; exact ⟨⟨by omega, fun _ => hc⟩, rfl⟩
      · rw [if_pos ⟨rfl, hc⟩]; exact fun h => hc (h.2 rfl)
    | 2 => exact ⟨⟨by omega, by omega⟩, rfl⟩
    | k + 3 => exact fun h => by have := h.1; omega

/-- R195: a product row. -/
theorem product_fieldsAs (row : Nat) :
    FieldsAs ProductRow.setField productFields (fieldRanges .products row) (fieldShown .products) := by
  intro r f v _
  unfold ProductRow.setField
  split
  case h_16 =>
    refine (inRange_writes _ _ v).map Iff.rfl (fun x hv hx => ?_)
    subst hx
    simp only [productFields, Fin.ofNat]
    rw [Nat.mod_eq_of_lt (by omega)]; rfl
  case h_23 =>
    match f with
    | n + 22 => exact fieldAllowed_beyond v (by show 22 ≤ n + 22; omega)
  all_goals first
    | exact (boolOfCode_writes v).map Iff.rfl (fun x _ hx => by subst hx; rfl)
    | exact (productKind_writes v).map Iff.rfl (fun x _ hx => by subst hx; rfl)
    | exact (inRange_writes _ _ v).map Iff.rfl (fun x _ hx => by subst hx; rfl)
    | exact (inMarkInterval_writes v).map Iff.rfl (fun x _ hx => by subst hx; rfl)

/-- R195: a lay row. -/
theorem lay_fieldsAs (row : Nat) :
    FieldsAs LayRow.setField layFields (fieldRanges .lays row) (fieldShown .lays) := by
  intro r f v _
  unfold LayRow.setField
  split
  case h_5 =>
    match f with
    | n + 4 => exact fieldAllowed_beyond v (by show 4 ≤ n + 4; omega)
  all_goals first
    | exact (boolOfCode_writes v).map Iff.rfl (fun x _ hx => by subst hx; rfl)
    | exact (direction_writes v).map Iff.rfl (fun x _ hx => by subst hx; rfl)
    | exact (inRange_writes _ _ v).map Iff.rfl (fun x _ hx => by subst hx; rfl)

/-- R195: a mesh pattern row. -/
theorem mesh_fieldsAs (row : Nat) :
    FieldsAs MeshRow.setField meshFields (fieldRanges .mesh row) (fieldShown .mesh) := by
  intro r f v hv
  unfold MeshRow.setField
  split
  case h_11 =>
    match f with
    | n + 10 => exact fieldAllowed_beyond v (by show 10 ≤ n + 10; omega)
  all_goals first
    | exact (boolOfCode_writes v).map Iff.rfl (fun x _ hx => by subst hx; rfl)
    | exact (inRange_writes _ _ v).map Iff.rfl (fun x _ hx => by subst hx; rfl)
    | exact (inWiden_writes v hv).map Iff.rfl (fun x _ hx => by subst hx; rfl)
    | exact (inMeshNext_writes v).map Iff.rfl (fun x _ hx => by
        show List.set (meshFields r) 9 (meshNextCode x : Int) = List.set (meshFields r) 9 (v : Int)
        rw [hx])

/-- R123: a fault action table entry. -/
theorem class_fieldsAs (row : Nat) :
    FieldsAs (setClassField row) (fun c => [(c.code : Int)]) (fieldRanges .faults row) (fieldShown .faults) := by
  intro r f v _
  unfold setClassField
  match f with
  | n + 1 => exact fieldAllowed_beyond v (by show 1 ≤ n + 1; omega)
  | 0 =>
    show Writes (if row = 1 ∨ row = 15 then none else _) _ _
    by_cases hc : row = 1 ∨ row = 15
    · rw [if_pos hc]; exact fun h => hc.elim h.2.1 h.2.2
    · have hrow : row ≠ 1 ∧ row ≠ 15 := not_or.1 hc
      rw [if_neg hc]
      match v with
      | 0 => exact ⟨⟨by omega, hrow⟩, rfl⟩
      | 1 => exact ⟨⟨by omega, hrow⟩, rfl⟩
      | 2 => exact ⟨⟨by omega, hrow⟩, rfl⟩
      | 3 => exact ⟨⟨by omega, hrow⟩, rfl⟩
      | k + 4 => exact fun h => by have := h.1; omega

/-! ## All pairs (R196) -/

/-- Every pair in range, and the row as it is shown after them, one after another. -/
theorem setFields_writes {α : Type} {setField : α → Nat → Nat → Option α} {fields : α → List Int}
    {ranges : List (Nat → Prop)} {shown : Nat → Nat → Int} (h : FieldsAs setField fields ranges shown)
    (pairs : List (Byte × BitVec 32)) (r : α) :
    Writes (setFields setField pairs r) (∀ q ∈ pairs, fieldAllowed ranges q.1.toNat q.2.toNat)
      (fun r' => fields r' = pairs.foldl (fun l q => l.set q.1.toNat (shown q.1.toNat q.2.toNat)) (fields r)) := by
  induction pairs generalizing r with
  | nil => exact ⟨by simp, rfl⟩
  | cons p rest ih =>
    have one := h r p.1.toNat p.2.toNat p.2.isLt
    rw [setFields]
    cases hs : setField r p.1.toNat p.2.toNat with
    | none => rw [hs] at one; exact fun e => one (e p (by simp))
    | some r' =>
      rw [hs] at one
      have more := ih r'
      rw [Option.bind_some]
      cases ht : setFields setField rest r' with
      | none => rw [ht] at more; exact fun e => more (fun q hq => e q (by simp [hq]))
      | some r'' =>
        rw [ht] at more
        refine ⟨fun q hq => ?_, by rw [List.foldl_cons, ← one.2]; exact more.2⟩
        rcases List.mem_cons.1 hq with rfl | hq
        · exact one.1
        · exact more.1 q hq

/-- The row just written. -/
theorem getD_set_same {α : Type} {l : List α} {i : Nat} {x d : α} (h : i < l.length) : (l.set i x).getD i d = x := by
  rw [List.getD_eq_getElem?_getD, List.getElem?_set_self h]; rfl

/-- Another row. -/
theorem getD_set_other {α : Type} {l : List α} {i j : Nat} {x d : α} (h : i ≠ j) :
    (l.set i x).getD j d = l.getD j d := by
  rw [List.getD_eq_getElem?_getD, List.getElem?_set_ne h, List.getD_eq_getElem?_getD]

/-- R196: a row written in one of the tables: allowed exactly when every value is in its field's range; the row then
shows the values written and every other row shows what it showed. -/
theorem writeRow_writes (s : State) (name : TableName) (row : Nat) (pairs : List (Byte × BitVec 32))
    (h : s.tables.InRange) (hrow : name.hasRow row = true) :
    Writes (s.tables.writeRow name row pairs)
      (∀ q ∈ pairs, fieldAllowed (fieldRanges name row) q.1.toNat q.2.toNat)
      (fun t => ({ s with tables := t } : State).rowFields name row
          = pairs.foldl (fun l q => l.set q.1.toNat (fieldShown name q.1.toNat q.2.toNat)) (s.rowFields name row)
        ∧ ∀ n r, n.hasRow r = true → (n ≠ name ∨ r ≠ row) →
          ({ s with tables := t } : State).rowFields n r = s.rowFields n r) := by
  cases name <;> simp only [TableName.hasRow, decide_eq_true_eq, Bool.and_eq_true] at hrow
  · refine (setFields_writes (line_fieldsAs s.ownAddress row) pairs s.tables.line).map Iff.rfl
      (fun x _ hx => ⟨hx, fun n r hr ho => ?_⟩)
    cases n <;> first | rfl | skip
    simp only [TableName.hasRow, decide_eq_true_eq] at hr
    exact absurd rfl (ho.elim (fun e => e) (fun e => absurd (by omega) e))
  · refine (setFields_writes (station_fieldsAs row) pairs (s.tables.station row)).map Iff.rfl
      (fun x _ hx => ⟨?_, fun n r hr ho => ?_⟩)
    · exact (congrArg stationFields (getD_set_same (by rw [h.stationCount]; exact hrow))).trans hx
    · cases n <;> first | rfl | exact congrArg stationFields (getD_set_other (Ne.symm (ho.resolve_left (· rfl))))
  · refine (setFields_writes (action_fieldsAs row) pairs (s.tables.actions.getD row .forward)).map Iff.rfl
      (fun x _ hx => ⟨?_, fun n r hr ho => ?_⟩)
    · refine Eq.trans ?_ hx
      exact congrArg (fun a : Action => [(a.code : Int)]) (getD_set_same (by rw [h.actionCount]; exact hrow))
    · cases n <;> first | rfl | skip
      exact congrArg (fun a : Action => [(a.code : Int)]) (getD_set_other (Ne.symm (ho.resolve_left (· rfl))))
  · refine (setFields_writes (product_fieldsAs row) pairs (s.tables.products.getD row ProductRow.powerUp)).map Iff.rfl
      (fun x _ hx => ⟨?_, fun n r hr ho => ?_⟩)
    · exact (congrArg productFields (getD_set_same (by rw [h.productCount]; exact hrow))).trans hx
    · cases n <;> first | rfl | exact congrArg productFields (getD_set_other (Ne.symm (ho.resolve_left (· rfl))))
  · refine (setFields_writes (lay_fieldsAs row) pairs (s.tables.lays.getD row LayRow.powerUp)).map Iff.rfl
      (fun x _ hx => ⟨?_, fun n r hr ho => ?_⟩)
    · exact (congrArg layFields (getD_set_same (by rw [h.layCount]; exact hrow))).trans hx
    · cases n <;> first | rfl | exact congrArg layFields (getD_set_other (Ne.symm (ho.resolve_left (· rfl))))
  · refine (setFields_writes (mesh_fieldsAs row) pairs (s.tables.mesh.getD row MeshRow.powerUp)).map Iff.rfl
      (fun x _ hx => ⟨?_, fun n r hr ho => ?_⟩)
    · exact (congrArg meshFields (getD_set_same (by rw [h.meshCount]; exact hrow))).trans hx
    · cases n <;> first | rfl | exact congrArg meshFields (getD_set_other (Ne.symm (ho.resolve_left (· rfl))))
  · refine (setFields_writes (class_fieldsAs row) pairs (s.tables.faultClasses.getD (row - 1) .note)).map Iff.rfl
      (fun x _ hx => ⟨?_, fun n r hr ho => ?_⟩)
    · refine Eq.trans ?_ hx
      exact congrArg (fun c : FaultClass => [(c.code : Int)]) (getD_set_same (by rw [h.classCount]; omega))
    · cases n <;> first | rfl | skip
      simp only [TableName.hasRow, decide_eq_true_eq, Bool.and_eq_true] at hr
      have hne := ho.resolve_left (· rfl)
      exact congrArg (fun c : FaultClass => [(c.code : Int)]) (getD_set_other (by omega))
end Sys2Proof.Machine
end

