-- ==== Sys2Proof/Tests/Slice0.lean ====
section
/-! SUPPORT. Tests: the well-formedness checks refuse an ill-formed term each, small steps of single commands,
and for every statement with hypotheses a state and operands that meet the hypotheses of each clause. -/

namespace Sys2Proof.Tests

open Sys2Proof.Machine

-- one test after another: each waits for the kernel, and tests that wait together take a thread each
set_option Elab.async false

/-! ## Well-formedness -/

/-- 33 characters: one more than a payload holds. -/
def tooLong : List Byte := List.replicate 33 0

theorem test_wf_rejects_arrival : (Instr.arrival .u { dst := 1, src := 2, kind := 0, payload := tooLong }).wf = false := by
  decide

theorem test_wf_rejects_turns : (Instr.turns 0 tooLong).wf = false := by decide

theorem test_wf_rejects_haul : (Instr.haul tooLong).wf = false := by decide

theorem test_wf_rejects_rowdone : (Instr.rowdone tooLong).wf = false := by decide

theorem test_wf_rejects_cutdone : (Instr.cutdone tooLong).wf = false := by decide

theorem test_wf_rejects_take : (Instr.take tooLong).wf = false := by decide

theorem test_wf_rejects_packed : (Instr.packed 6 tooLong).wf = false := by decide

theorem test_wf_rejects_mreq : (Instr.mreq .u 1 tooLong).wf = false := by decide

theorem test_wf_rejects_six_pairs : (Instr.writeFields 1 4 0 (List.replicate 6 (0, 0))).wf = false := by decide

theorem test_wf_rejects_amounts :
    (Instr.coilUnderflow 0).wf = false ∧ (Instr.markUnderflow 0).wf = false ∧ (Instr.windowEnd 0).wf = false
      ∧ (Instr.coilUnderflow 2147483648).wf = false ∧ (Instr.markUnderflow 2147483648).wf = false
      ∧ (Instr.windowEnd 2147483648).wf = false := by
  decide

theorem test_wf_accepts_the_limits :
    (Instr.haul (List.replicate 32 0)).wf = true ∧ (Instr.windowEnd 2147483647).wf = true
      ∧ (Instr.writeFields 1 4 0 (List.replicate 5 (0, 0))).wf = true := by
  decide

theorem test_no_word_spells_a_command : decodeTableWord 8 1 = none := by decide

/-! ## A small plant -/

/-- The product of the tests: 3 strands, coils of 5,000 cm cut 100 cm early. -/
def product (kind : ProductKind) : ProductRow :=
  { ProductRow.powerUp with
    valid := true, productId := 7, kind := kind, strandCount := 3, runTolerance := 50, threadTolerance := 200,
    breakFilter := 2, tensionFloor := 100, coilTarget := 5000, cutLead := 100, overlengthLimit := 200,
    markInterval := 1000, layWindow := 500, maxHaulSpeed := 600, maxHeadSpeed := 900, needleLimit := 3,
    gradeB := 10, gradeC := 20, rejectAt := 30 }

/-- The mesh step of the tests: 5 rows over positions 10 to 20, a taper after every third. -/
def meshStep : MeshRow :=
  { valid := true, rows := 5, first := 10, last := 20, widenLeft := 0, widenRight := 1, taperEvery := 3,
    selvedgeWidth := 2, selvedgeCode := 1, next := none }

/-- Stations 1 master (side U), 2 haul-off, 3 head unit 0, 4 knotter, 5 cutter, 6 packer, 7 other (side D). -/
def plant (kind : ProductKind) : Tables :=
  { Tables.powerUp with
    stations := [.unused, .master, .hauloff, .head, .knotter, .cutter, .packer, .other].map
        (fun r => { role := r, unit := 0, side := if r = .master then .u else .d })
      ++ List.replicate 120 StationRow.powerUp
    products := product kind :: List.replicate 7 ProductRow.powerUp
    lays := { inUse := true, direction := .z, targetLay := 500, takeUp := 1000 } :: List.replicate 191 LayRow.powerUp
    mesh := meshStep :: { meshStep with rows := 4 } :: { meshStep with valid := false }
      :: List.replicate 61 MeshRow.powerUp }

/-- A head record in this state. -/
def headIn (x : HeadState) : HeadRecord := { HeadRecord.cleared with state := x }

/-- The plant in this mode with this head state at unit 0 and an open coil of 3,000 cm. -/
def site (mode : Mode) (kind : ProductKind) : State :=
  { State.reset with
    mode := mode
    tables := plant kind
    tally := { State.reset.tally with
      loaded := true, haulTotal := 3000
      coil := { running := true, current := 1900, preset := 4900, excess := 0 }
      mark := { running := true, current := 1000, preset := 1000, skipped := 0 }
      window := { running := true, current := 500, preset := 500, skipped := 0 }
      haulwatch := { running := mode = .run ∨ mode = .creep, current := 500, preset := 500, excess := 0 } }
    lay := { Lay.cleared with heads := Lay.cleared.heads.set 0 (headIn .tracking) }
    mesh := if kind = .twineNet then
        { Mesh.cleared with active := true, cursor := { Cursor.cleared with bandFirst := 10, bandLast := 20 } }
      else Mesh.cleared
    coil := { CoilJob.cleared with
      openCoil := { CoilJob.cleared.openCoil with length := 3000, productId := 7, net := kind = .twineNet } } }

/-- The head record of unit 0 replaced. -/
def withHead (h : HeadRecord) (s : State) : State := { s with lay.heads := s.lay.heads.set 0 h }

/-- The open coil's state replaced. -/
def withCoil (x : CoilState) (s : State) : State := { s with coil.openCoil.state := x }

/-- A record of the coil queue. -/
def queued (number : Nat) (x : CoilState) : CoilRecord :=
  { CoilJob.cleared.openCoil with number := number, length := 4900, productId := 7, state := x, grade := some .a }

/-- Frames waiting in a forwarding queue. -/
def waiting (n : Nat) : List FwdFrame :=
  List.replicate n { frame := { dst := 7, src := 1, kind := 99, payload := [] }, action := .forward, destRole := none }

/-- Frames waiting in an injection queue. -/
def injected (n : Nat) : List InjFrame :=
  List.replicate n { frame := { dst := 1, src := 120, kind := 17, payload := [0] }, mark := .plain }

/-- A transmitter sending a frame of this origin. -/
def sending (kind : Byte) (payload : List Byte) (o : Origin) : Holding :=
  { frame := { dst := 1, src := 120, kind := kind, payload := payload }, origin := o, parity := false, released := false }

/-- A fault record. -/
def record (kind : FaultKind) (source : Option Nat) (c : FaultClass) : FaultRecord :=
  { identity := 0, kind := kind, source := source, classTaken := c, count := 1, first := 0, last := 0,
    queued := false, notified := true }

/-- The state with these fault records. -/
def withFaults (l : List FaultRecord) (s : State) : State := { s with faults.list := l, faults.nextIdentity := 1 }

/-- A state is at rest with both transmitters idle, a slot and a reply entry free and no request held. -/
def open_ (s : State) : Bool :=
  !s.resetIn && !s.store.arriving && !s.store.reserved && s.portU.transmitter.isNone
    && s.portD.transmitter.isNone && decide (0 < s.freeForwarding) && decide (s.tables.line.holdThreshold ≤ 12)
    && (s.holdOut == decide (s.freeForwarding ≤ s.tables.line.holdThreshold))

/-- Such a state takes frames. -/
theorem takesFrames_of_open {s : State} (h : open_ s = true) : s.TakesFrames := by
  simp only [open_, Bool.and_eq_true, Bool.not_eq_true', Option.isNone_iff_eq_none, decide_eq_true_eq,
    beq_iff_eq] at h
  obtain ⟨⟨⟨⟨⟨⟨⟨a, b⟩, c⟩, d⟩, e⟩, f⟩, g⟩, i⟩ := h
  exact ⟨⟨a, b, c, by simp [d], by simp [e]⟩, f, b, g, by simp [i]⟩

/-- Such a state with no request held and a reply entry free takes requests. -/
theorem takesRequests_of_open {s : State} (h : open_ s = true) (a : s.store.hold = none) (b : s.iquHeld < 4) :
    s.TakesRequests := ⟨takesFrames_of_open h, a, b⟩

/-- The plant takes requests in every mode and for both kinds of product. -/
theorem site_takesRequests (m : Mode) (k : ProductKind) : (site m k).TakesRequests := by
  cases m <;> cases k <;> exact takesRequests_of_open (by decide +kernel) rfl (by decide +kernel)

/-! ## Single commands -/

/-- What a field of the next state is; none when there is no next state. -/
def after {α : Type} (f : State → α) (c : Instr) (s : State) : Option α :=
  match exec c s with
  | .next t => some (f t)
  | .fault _ => none
  | .refused _ => none

theorem test_powerUp_address : after State.ownAddress .powerUp (site .run .rope) = some 120 := by decide +kernel

theorem test_pinReset_keeps_tables :
    after (fun t => (t.mode, t.tables.line.haulWatch, (t.tables.station 1).role, t.resetIn)) .pinReset (site .run .rope)
      = some (.parked, 500, .master, true) := by
  decide +kernel

theorem test_haul_counts_down :
    after (fun t => (t.tally.haulTotal, t.tally.coil.current, t.coil.openCoil.length)) (.haul [0, 100])
      (site .run .rope) = some (3100, 1800, 3100) := by
  decide +kernel

theorem test_haul_backward_refused :
    after (fun t => (t.mode, t.tally.haulTotal, t.faults.counters.getD 9 0)) (.haul [255, 255]) (site .run .rope)
      = some (.run, 3000, 1) := by
  decide +kernel

theorem test_haul_makes_the_cut :
    after (fun t => (t.coil.openCoil.state, t.coil.openCoil.cutLag, t.store.iqd.map (fun e => (e.frame.kind, e.frame.payload))))
      (.haul [8, 0]) (site .run .rope) = some (.cutting, 148, [(9, [0, 1]), (11, [0, 1, 0, 0, 19, 136])]) := by
  decide +kernel

theorem test_turns_break_halts :
    after (fun t => (t.mode, (t.head 0).state, t.store.latchPending)) (.turns 0 [0, 5, 0, 200, 2]) (site .run .rope)
      = some (.halted, .broken, some .halt) := by
  decide +kernel

theorem test_rowdone_missing_knot :
    after (fun t => (t.mesh.misses, t.coil.openCoil.points)) (.rowdone [0, 9, 1, 0, 15])
      (site .run .twineNet) = some ([{ position := 15, misses := 1, flagged := false }], 1) := by
  decide +kernel

theorem test_rowdone_gap :
    after (fun t => (t.mesh.cursor.rowsDone, t.mesh.cursor.expected, t.faults.counters.getD 6 0)) (.rowdone [0, 9, 0])
      { site .run .twineNet with mesh.cursor := { (site .run .twineNet).mesh.cursor with expected := some 8 } }
      = some (2, some 10, 1) := by
  decide +kernel

theorem test_cutdone_closes :
    after (fun t => (t.coil.queue.map (fun r => (r.number, r.length, r.grade)), t.coil.openCoil.number, t.coil.openCoil.length))
      (.cutdone [0, 1, 0, 40]) (withCoil .cutting (site .run .rope)) = some ([(1, 2960, some .a)], 2, 40) := by
  decide +kernel

theorem test_packed_adds :
    after (fun t => (t.tally.packedTotal, t.coil.queue.length)) (.packed 6 [0, 9])
      { site .run .rope with coil.queue := [queued 9 .labelled] } = some (4900, 0) := by
  decide +kernel

theorem test_packed_nack_on_iqd :
    after (fun t => (t.store.iqu.length, t.store.iqd.map (fun e => (e.frame.dst, e.frame.payload)))) (.packed 1 [0, 9])
      (site .parked .rope) = some (0, [(1, [14, 3])]) := by
  decide +kernel

theorem test_readCounters_counts_its_own_frame :
    after (fun t => t.store.iqu.map (fun e => e.frame.payload.take 4)) (.readCounters 1 0) (site .run .rope)
      = some [[0, 0, 0, 1]] := by
  decide +kernel

theorem test_setMode_run :
    after (fun t => (t.mode, t.store.iqu.map (fun e => e.frame.payload))) (.setMode 1 2) (site .threading .rope)
      = some (.run, [[0]]) := by
  decide +kernel

theorem test_setpt_leaves_limited :
    after (fun t => t.portD.transmitter.map (fun h => h.frame.payload)) (.transmitStart .d)
      { site .creep .rope with store.fqd :=
        [{ frame := { dst := 2, src := 1, kind := 5, payload := [1, 0] }, action := .clamp, destRole := some .hauloff }] }
      = some (some [0, 20]) := by
  decide +kernel

/-- The characters of a request whose code no request has. -/
def requestCharacters : List Byte := frameCharacters { dst := 120, src := 1, kind := 16, payload := [99] }

theorem test_characters_make_a_reply :
    after (fun t => (t.portU.counters.framesGood, t.store.iqu.map (fun e => e.frame.payload)))
      (.characterReceived .u
        { value := requestCharacters.getLastD 0, mark := false, parity := false, stop := true })
      { site .run .rope with portU.receiver := Receiver.fill requestCharacters.dropLast } = some (1, [[1]]) := by
  decide +kernel

theorem test_idle_step : step (site .run .rope) = .next (site .run .rope) := rfl

/-! ## Witnesses: states and operands that meet the hypotheses of the statements, clause by clause -/

/-- The store with every forwarding slot held. -/
def fullStore (s : State) : State := { s with store.fqd := waiting 16, store.fqu := waiting 8, holdOut := true }

/-- The plant with one queue of the store full. -/
def fullQueue (toward : Port) (s : State) : State :=
  match toward with
  | .d => { s with store.fqd := waiting 16 }
  | .u => { s with store.fqu := waiting 16 }

/-- One character without an error while parity is off. -/
def plainChar (value : Byte) (mark : Bool) : LineChar := { value := value, mark := mark, parity := false, stop := true }

/-- The plant's receiver in this state, with parity on when asked. -/
def receiving (r : Receiver) (parity : Bool) : State :=
  { site .run .rope with portU.receiver := r, tables.line.parityU := parity }

theorem witness_StepRunsFrontCommand :
    ({ site .run .rope with pending := [.release 1, .cut 1] }).pending = .release 1 :: [.cut 1]
      ∧ (site .run .rope).pending = [] := by
  decide +kernel

theorem witness_ResetsAndTheResetLine :
    let s := { site .run .rope with resetIn := true }
    let c := Instr.release 1
    s.resetIn = true ∧ c ≠ .powerUp ∧ c ≠ .pinReset ∧ c ≠ .pinResetRelease
      ∧ (∀ p, c ≠ .holdInAsserted p) ∧ (∀ p, c ≠ .holdInReleased p) :=
  ⟨rfl, nofun, nofun, nofun, nofun, nofun⟩

theorem witness_HoldInGatesTransmitStarts :
    let s := site .run .rope
    let held (p : Port) : State := s.setPort p { s.port p with holdIn := true }
    let busy (p : Port) : State := s.setPort p { s.port p with transmitter := some (sending 9 [] .latch) }
    s.resetIn = false ∧ s.store.latchPending = none ∧ s.store.iqd = [] ∧ s.store.fqd = [] ∧ s.store.iqu = []
      ∧ s.store.fqu = []
      ∧ ∀ p, (held p).resetIn = false ∧ ((held p).port p).holdIn = true
        ∧ (busy p).resetIn = false ∧ ((busy p).port p).transmitter.isSome = true :=
  ⟨rfl, rfl, rfl, rfl, rfl, rfl, fun p => by cases p <;> exact ⟨rfl, rfl, rfl, rfl⟩⟩

/-- What the statements of characters call an erroneous character. -/
def isBad (s : State) (p : Port) (c : LineChar) : Prop :=
  c.stop = false ∨ (s.parityOn p = true ∧ (onesOf c.value + c.mark.toNat + c.parity.toNat) % 2 = 1)

theorem witness_HuntAndSkipCharacters :
    let s := receiving .hunt true
    s.resetIn = false ∧ ((s.port .u).receiver = .hunt ∨ (s.port .u).receiver = .skip)
      ∧ isBad s .u (plainChar 1 false) ∧ isBad s .u { plainChar 0 false with stop := false }
      ∧ ¬isBad s .u (plainChar 3 false) ∧ (plainChar 3 false).mark = false
      ∧ ¬isBad (receiving .hunt false) .u (plainChar 128 true) ∧ 127 < (plainChar 128 true).value.toNat
      ∧ ¬isBad (receiving .skip false) .u (plainChar 127 true) ∧ (plainChar 127 true).value.toNat ≤ 127
      ∧ 0 < (receiving .skip false).freeForwarding ∧ (receiving .skip false).portU.receiver = .skip
      ∧ (fullStore (receiving .hunt false)).freeForwarding = 0 ∧ (fullStore (receiving .hunt false)).portU.receiver = .hunt := by
  simp only [isBad]; decide +kernel

/-- The plant's receiver with these characters stored keeps the store bounded. -/
theorem receiving_bounded (l : List Byte) (b : Bool) : (receiving (.fill l) b).StoreBounded :=
  ⟨⟨rfl, rfl, nofun, nofun⟩, Nat.zero_le _, Nat.zero_le _, Nat.zero_le _, Nat.zero_le _,
    by show (1 + 0 + 0 + 0 + 0 + 0 + 0 + 0 : Nat) ≤ 24; decide, nofun⟩

theorem witness_FillCharacters :
    let s (l : List Byte) := receiving (.fill l) false
    let header : List Byte := [120, 1, 16, 0]
    let stored := requestCharacters.dropLast
    let last := requestCharacters.getLastD 0
    let fault (l : List Byte) (c : LineChar) := (l.length = 1 ∧ 127 < c.value.toNat) ∨ (l.length = 3 ∧ 32 < c.value.toNat)
    let complete (l : List Byte) := 4 ≤ l.length ∧ l.length = 6 + (l.getD 3 0).toNat
    let good (l : List Byte) := numberOf (l.drop (l.length - 2)) = (frameCheck (l.take (l.length - 2))).toNat
    (∀ l, (s l).resetIn = false ∧ (s l).StoreBounded ∧ ((s l).port .u).receiver = .fill l)
      ∧ isBad (s [1]) .u { plainChar 1 false with stop := false } ∧ isBad (receiving (.fill [1]) true) .u (plainChar 1 false)
      ∧ ¬isBad (s [1]) .u (plainChar 127 true) ∧ (plainChar 127 true).value.toNat ≤ 127
      ∧ ¬isBad (s [1]) .u (plainChar 128 true) ∧ 127 < (plainChar 128 true).value.toNat
      ∧ ¬isBad (s [1]) .u (plainChar 128 false) ∧ fault [1] (plainChar 128 false)
      ∧ ¬isBad (s [1, 2, 3]) .u (plainChar 33 false) ∧ fault [1, 2, 3] (plainChar 33 false)
      ∧ ¬isBad (s [1, 2, 3]) .u (plainChar 32 false) ∧ ¬fault [1, 2, 3] (plainChar 32 false) ∧ ¬complete [1, 2, 3, 32]
      ∧ ¬fault (header ++ [0]) (plainChar 0 false) ∧ complete (header ++ [0, 0]) ∧ ¬good (header ++ [0, 0])
      ∧ ¬fault stored (plainChar last false) ∧ complete (stored ++ [last]) ∧ good (stored ++ [last]) := by
  refine ⟨fun l => ⟨rfl, receiving_bounded l false, rfl⟩, ?_⟩
  simp only [isBad]; decide +kernel

theorem witness_FrameCharactersReadBack :
    (⟨127, 1, 5, List.replicate 32 255⟩ : Frame).payload.length ≤ 32
      ∧ (sending 5 (List.replicate 32 255) .forwarded).frame = ⟨1, 120, 5, List.replicate 32 255⟩ := by
  decide

theorem witness_RequestReadBack :
    let ps : List (Byte × BitVec 32) := [(3, 1), (4, 4294967295), (5, 0), (6, 2), (255, 7)]
    let twice : List (Byte × BitVec 32) := [(3, 1), (3, 1)]
    ps ≠ [] ∧ ps.length ≤ 5 ∧ (ps.map Prod.fst).Nodup ∧ twice.length ≤ 5 ∧ ¬(twice.map Prod.fst).Nodup
      ∧ 18 < (19 : Byte).toNat ∧ ([] : List Byte).length < 1 ∧ ([4, 0, 1] : List Byte).length < 4
      ∧ 5 < (6 : Byte).toNat ∧ (List.replicate 24 (0 : Byte)).length < 5 * (5 : Byte).toNat := by
  decide

/-- A frame with an empty payload. -/
def bare (dst src : Addr) (kind : Byte) : Frame := { dst := dst, src := src, kind := kind, payload := [] }

theorem witness_ArrivalDropped :
    let s := site .run .rope
    (∀ k, FrameKind.ofCode (bare 8 1 99).kind = k → k ≠ .turns ∧ k ≠ .haul ∧ k ≠ .rowdone) ∧ s.TakesFrames
      ∧ (fullStore s).resetIn = false ∧ (fullStore s).freeForwarding = 0
      ∧ (bare 7 8 99).kind ≠ 16 ∧ (s.stationOf (bare 7 8 99).src).role = .unused
      ∧ (bare 7 2 99).kind ≠ 16 ∧ (s.stationOf (bare 7 2 99).src).role ≠ .unused
      ∧ (s.stationOf (bare 7 2 99).src).side ≠ .u
      ∧ (bare 8 1 99).kind ≠ 16 ∧ (s.stationOf (bare 8 1 99).src).role ≠ .unused
      ∧ (s.stationOf (bare 8 1 99).src).side = .u ∧ (bare 8 1 99).dst ≠ s.ownAddress
      ∧ (bare 8 1 99).dst ≠ 127 ∧ (s.stationOf (bare 8 1 99).dst).role = .unused :=
  ⟨by rintro _ rfl; decide, (site_takesRequests _ _).1, by decide +kernel⟩

/-- The state with this many frames in FQD and in FQU. -/
def queueing (n m : Nat) (s : State) : State := { s with store.fqd := waiting n, store.fqu := waiting m }

/-- With 15 or 16 frames in one of them the plant still takes frames. -/
theorem queueing_takesFrames (m : Mode) (n : Fin 2) : (queueing (15 + n) 0 (site m .rope)).TakesFrames
    ∧ (queueing 0 (15 + n) (site m .rope)).TakesFrames := by
  cases m <;> revert n <;> exact fun n => ⟨takesFrames_of_open (by revert n; decide +kernel),
    takesFrames_of_open (by revert n; decide +kernel)⟩

theorem witness_ArrivalForwarded :
    let s := site .run .rope
    let halted := site .halted .rope
    let tapped (src : Addr) (kind : Byte) (pl : List Byte) : Frame := { bare 1 src kind with payload := pl }
    let setpt (pl : List Byte) : Frame := { bare 2 1 5 with payload := pl }
    let known (f : Frame) := f.dst = 127 ∨ (s.stationOf f.dst).role ≠ .unused
    let blocking : State := { s with tables.actions := s.tables.actions.set 12 .block }
    (∀ src : Addr, src = 1 ∨ src = 2 ∨ src = 3 ∨ src = 4 ∨ src = 7 →
        (s.stationOf src).role ≠ .unused ∧ (s.stationOf src).side = (if src = 1 then .u else .d))
      ∧ s.TakesFrames ∧ halted.TakesFrames ∧ blocking.TakesFrames
      ∧ (∀ n : Fin 2, (queueing (15 + n) 0 s).TakesFrames ∧ (queueing 0 (15 + n) s).TakesFrames) ∧ s.ownAddress = 120
      ∧ FrameKind.ofCode (tapped 3 2 [0, 5, 0, 200, 3]).kind = .turns ∧ (s.stationOf 3).role = .head
      ∧ FrameKind.ofCode (tapped 2 3 [0, 5]).kind = .haul ∧ (s.stationOf 2).role = .hauloff
      ∧ FrameKind.ofCode (tapped 4 4 [0, 9, 0]).kind = .rowdone ∧ (s.stationOf 4).role = .knotter
      ∧ FrameKind.ofCode (tapped 7 2 []).kind = .turns ∧ (s.stationOf 7).role = .other
      ∧ (s.stationOf (bare 1 7 9).dst).side = .u ∧ (s.stationOf (bare 7 1 9).dst).side = .d
      ∧ ¬known (bare 8 1 99) ∧ known (bare 7 1 9) ∧ known (bare 1 7 9) ∧ known (bare 127 1 9) ∧ known (setpt [])
      ∧ FrameKind.ofCode (bare 7 1 9).kind = .cutreq ∧ FrameKind.ofCode (bare 7 1 16).kind = .mreq
      ∧ blocking.tables.actions.getD 12 .forward = .block ∧ blocking.tables.actions.getD 13 .forward ≠ .block
      ∧ s.tables.actions.getD 12 .forward ≠ .block ∧ s.tables.actions.getD 8 .forward ≠ .block
      ∧ s.tables.actions.getD 10 .forward ≠ .block
      ∧ FrameKind.ofCode (setpt []).kind = .setpt ∧ (setpt [1]).payload.length < 2 ∧ ¬(setpt [1, 2]).payload.length < 2
      ∧ (s.stationOf (setpt []).dst).side = .d
      ∧ FrameKind.ofCode (bare 127 1 8).kind = .go ∧ halted.mode = .halted ∧ s.mode ≠ .halted
      ∧ (queueing 15 0 s).store.fqd.length < 16 ∧ 16 ≤ (queueing 16 0 s).store.fqd.length
      ∧ (queueing 0 15 s).store.fqu.length < 16 ∧ 16 ≤ (queueing 0 16 s).store.fqu.length :=
  ⟨by rintro _ (rfl | rfl | rfl | rfl | rfl) <;> decide, (site_takesRequests _ _).1, (site_takesRequests _ _).1,
    takesFrames_of_open (by decide +kernel), queueing_takesFrames .run, by decide +kernel⟩

/-- The plant with this many entries of each injection queue held. -/
def injecting (n m : Nat) (s : State) : State := { s with store.iqd := injected n, store.iqu := injected m }

theorem witness_UnsupportedFrameAnswered :
    let s := injecting 3 3 (site .run .rope)
    let full := injecting 4 4 (site .run .rope)
    let unmapped : State := { s with tables.stations := s.tables.stations.set 1 StationRow.powerUp }
    let kind (f : Frame) := FrameKind.ofCode f.kind
    let role (f : Frame) := (s.stationOf f.src).role
    s.TakesFrames ∧ full.TakesFrames ∧ unmapped.TakesFrames ∧ (∀ a, (unmapped.tables.station a).role ≠ .master)
      ∧ (∃ a, (s.tables.station a).role = .master) ∧ (bare 120 9 16).kind = 16
      ∧ (bare 120 9 16).dst = unmapped.ownAddress ∧ s.ownAddress = 120 ∧ role (bare 120 1 99) ≠ .unused ∧ (s.stationOf 1).side = .u
      ∧ (∀ src : Addr, src = 5 ∨ src = 6 ∨ src = 7 → (s.stationOf src).role ≠ .unused ∧ (s.stationOf src).side = .d)
      ∧ kind (bare 120 1 99) = .other ∧ kind (bare 120 7 9) = .cutreq
      ∧ kind (bare 120 7 10) = .cutdone ∧ role (bare 120 7 10) ≠ .cutter ∧ role (bare 120 5 10) = .cutter
      ∧ kind (bare 120 7 12) = .take ∧ kind (bare 120 7 14) = .packed ∧ role (bare 120 7 12) ≠ .packer
      ∧ role (bare 120 6 12) = .packer ∧ role (bare 120 6 14) = .packer
      ∧ kind (bare 120 1 18) = .nack ∧ kind (bare 120 1 17) = .mrep ∧ kind (bare 120 1 15) = .alarm
      ∧ kind (bare 120 1 16) = .mreq ∧ role (bare 120 1 16) = .master ∧ kind (bare 120 7 16) = .mreq
      ∧ role (bare 120 7 16) ≠ .master
      ∧ s.iquHeld < 4 ∧ s.iqdHeld < 4 ∧ 4 ≤ full.iquHeld ∧ 4 ≤ full.iqdHeld :=
  ⟨takesFrames_of_open (by decide +kernel), takesFrames_of_open (by decide +kernel),
    takesFrames_of_open (by decide +kernel), (hasMaster_false_iff _).1 (by decide +kernel), ⟨1, by decide +kernel⟩,
    by decide +kernel⟩

theorem witness_ReportsNotTaken :
    let s := site .run .rope
    let net := site .run .twineNet
    let late : State := { net with mesh.cursor.expected := some 65535 }
    s.resetIn = false ∧ net.resetIn = false
      ∧ ([0, 1, 0, 1] : List Byte).length < 5 ∧ 1023 < numberAt [0, 1, 4, 0, 8] 3 2 ∧ 8 < numberAt [0, 1, 3, 255, 9] 5 1
      ∧ ¬(([0, 1, 3, 255, 8] : List Byte).length < 5 ∨ 1023 < numberAt [0, 1, 3, 255, 8] 3 2 ∨ 8 < numberAt [0, 1, 3, 255, 8] 5 1)
      ∧ (site .parked .rope).mode = .parked ∧ (site .halted .rope).mode = .halted ∧ (s.layRow 1).inUse = false
      ∧ ((withHead (headIn .broken) s).head 0).state = .broken
      ∧ ([0, 1] : List Byte).length < 3 ∧ ([0, 1, 1, 0] : List Byte).length < 3 + 2 * min (numberAt [0, 1, 1, 0] 3 1) 14
      ∧ ¬(([0, 1, 0] : List Byte).length < 3 ∨ ([0, 1, 0] : List Byte).length < 3 + 2 * min (numberAt [0, 1, 0] 3 1) 14)
      ∧ s.mesh.active = false ∧ net.mesh.active = true ∧ net.mode = .run
      ∧ late.mesh.cursor.expected = some 65535 ∧ 256 ≤ (numberAt [0, 255, 0] 1 2 + 65536 - 65535) % 65536
      ∧ 256 ≤ (numberAt [255, 254, 0] 1 2 + 65536 - 65535) % 65536 := by
  decide +kernel

theorem witness_TurnsTaken :
    let s := site .run .rope
    let low := withHead { headIn .drift with lowRun := 1 } s
    (∀ pl : List Byte, pl = [0, 5, 3, 255, 2] ∨ pl = [0, 5, 0, 100, 3] ∨ pl = [0, 5, 0, 99, 8] →
        5 ≤ pl.length ∧ numberAt pl 3 2 ≤ 1023 ∧ numberAt pl 5 1 ≤ 8)
      ∧ s.resetIn = false ∧ s.mode = .run ∧ (s.layRow 0).inUse = true ∧ (s.head 0).state ≠ .broken ∧ (low.head 0).state ≠ .broken
      ∧ numberAt [0, 5, 3, 255, 2] 5 1 < s.product.strandCount
      ∧ s.product.strandCount ≤ numberAt [0, 5, 0, 100, 3] 5 1 ∧ s.product.tensionFloor ≤ numberAt [0, 5, 0, 100, 3] 3 2
      ∧ numberAt [0, 5, 0, 99, 8] 3 2 < s.product.tensionFloor ∧ (s.head 0).lowRun + 1 < s.product.breakFilter
      ∧ low.product.breakFilter ≤ (low.head 0).lowRun + 1 ∧ s.tables.faultClass .strandBreak = .halt := by
  refine ⟨?_, by decide +kernel⟩
  rintro _ (rfl | rfl | rfl) <;> decide

/-- The plant with a head in this state, with these reports and this window sum, at unit 0. -/
def judging (x : HeadState) (reports : Nat) (sum : Int) : State :=
  withHead { headIn x with reports := reports, windowSum := sum } (site .run .rope)

/-- What the statement of window ends calls a judged head. -/
abbrev isJudged (s : State) (u : HeadUnit) : Prop := (s.layRow u).inUse = true
  ∧ ((s.head u).state = .tracking ∨ (s.head u).state = .drift ∨ (s.head u).state = .stale)

/-- What it calls a measured head. -/
abbrev isMeasured (s : State) (u : HeadUnit) : Prop := isJudged s u ∧ 0 < (s.head u).reports

/-- What it calls a wrong direction. -/
abbrev isWrong (s : State) (u : HeadUnit) : Prop := (s.head u).windowSum = 0
  ∨ (0 < (s.head u).windowSum ∧ (s.layRow u).direction = .s)
  ∨ ((s.head u).windowSum < 0 ∧ (s.layRow u).direction = .z)

/-- What it calls the deviation, at a window of 500 cm. -/
def offAt (s : State) (u : HeadUnit) : Nat :=
  let lay := min ((s.head u).windowSum.natAbs * 10000000 / (500 * (s.layRow u).takeUp)) 4294967295
  if isWrong s u then 1000 else
    min (((lay : Int) - (s.layRow u).targetLay).natAbs * 1000 / (s.layRow u).targetLay) 65535

theorem witness_WindowEnds :
    let s := site .run .rope
    (s.resetIn = false ∧ s.tally.window.running = true ∧ s.tally.window.current ≤ 500 ∧ s.lay.heads.length = 24
        ∧ (judging .drift 1 0).lay.heads.length = 24 ∧ s.mode = .run ∧ s.tally.windowLength = 0
        ∧ (∀ m : Mode, m = .parked ∨ m = .halted ∨ m = .threading → (site m .rope).mode = m
          ∧ (site m .rope).tally.window.running = true)
        ∧ s.product.runTolerance = 50 ∧ (site .threading .rope).product.threadTolerance = 200)
      ∧ ((s.layRow 1).inUse = false ∧ (s.layRow 0).inUse = true
        ∧ ((judging .broken 0 0).head 0).state = .broken ∧ ((judging .settling 0 0).head 0).state = .settling
        ∧ isJudged (judging .stale 0 0) 0 ∧ ((judging .stale 0 0).head 0).reports = 0
        ∧ (∀ u, ¬isMeasured (judging .settling 1 0) u))
      ∧ (isMeasured (judging .drift 1 (-4)) 0 ∧ offAt (judging .drift 1 (-4)) 0 = 1000
        ∧ isMeasured (judging .tracking 1 0) 0 ∧ offAt (judging .tracking 1 0) 0 = 1000
        ∧ isMeasured (judging .stale 1 25) 0 ∧ offAt (judging .stale 1 25) 0 = 0
        ∧ isMeasured (judging .tracking 1 27) 0 ∧ offAt (judging .tracking 1 27) 0 = 80
        ∧ (∀ u, isMeasured (judging .tracking 1 27) u → offAt (judging .tracking 1 27) u ≤ 80)) := by
  refine ⟨⟨rfl, rfl, by decide, rfl, rfl, rfl, rfl, ?_, rfl, rfl⟩, by decide +kernel, by decide +kernel⟩
  rintro _ (rfl | rfl | rfl) <;> exact ⟨rfl, rfl⟩

theorem witness_HaulForward :
    let s := site .run .rope
    ([0] : List Byte).length < 2 ∧ signedOf 2 (numberAt [0, 0] 1 2) = 0 ∧ 0 < signedOf 2 (numberAt [1, 243] 1 2)
      ∧ s.resetIn = false ∧ s.tally.haulTotal + (signedOf 2 (numberAt [1, 243] 1 2)).toNat ≤ 2147483647
      ∧ s.coil.openCoil.length + 499 ≤ s.product.coilTarget + s.product.overlengthLimit
      ∧ 499 < s.tally.coil.current ∧ 499 < s.tally.mark.current ∧ 499 < s.tally.window.current
      ∧ s.tally.coil.running = true ∧ s.tally.mark.running = true ∧ s.tally.window.running = true
      ∧ (withCoil .cutting s).coil.openCoil.state = .cutting := by
  decide +kernel

theorem witness_HaulPassesOn :
    let s := site .run .rope
    let top : State := { s with tally.haulTotal := 2147483647 }
    s.resetIn = false ∧ 2 ≤ ([127, 255] : List Byte).length ∧ 0 < signedOf 2 (numberAt [127, 255] 1 2)
      ∧ min 32767 (2147483647 - top.tally.haulTotal) = 0 ∧ 0 < min 32767 (2147483647 - s.tally.haulTotal)
      ∧ s.coil.openCoil.state ≠ .cutting ∧ s.coil.openCoil.overlengthNoted = false
      ∧ s.product.coilTarget + s.product.overlengthLimit < s.coil.openCoil.length + 2201
      ∧ ¬(s.product.coilTarget + s.product.overlengthLimit < s.coil.openCoil.length + 2200)
      ∧ s.tally.coil.running = true ∧ s.tally.coil.current ≤ 1900 ∧ 1899 < s.tally.coil.current
      ∧ s.tally.mark.running = true ∧ s.tally.mark.current ≤ 1000 ∧ 999 < s.tally.mark.current
      ∧ s.tally.window.running = true ∧ s.tally.window.current ≤ 500 ∧ 499 < s.tally.window.current
      ∧ State.reset.tally.coil.running = false ∧ State.reset.tally.mark.running = false
      ∧ State.reset.tally.window.running = false := by
  decide +kernel

theorem witness_ReverseHaul :
    2 ≤ ([128, 0] : List Byte).length ∧ signedOf 2 (numberAt [128, 0] 1 2) < 0 ∧ signedOf 2 (numberAt [255, 255] 1 2) < 0
      ∧ (site .run .rope).resetIn = false ∧ (site .run .rope).mode = .run ∧ (site .creep .rope).mode = .creep
      ∧ (site .parked .rope).resetIn = false ∧ (site .parked .rope).mode = .parked
      ∧ (site .threading .rope).mode = .threading ∧ (site .halted .rope).mode = .halted
      ∧ ({ site .run .rope with tables.faultClasses := (site .run .rope).tables.faultClasses.set 9 .halt }).tables.faultClass
          .haulReverse = .halt := by
  decide +kernel

theorem witness_CoilAndMarkUnderflow :
    let s := site .run .rope
    let full : State := { s with coil.queue := List.replicate 16 (queued 9 .closed) }
    s.resetIn = false ∧ s.tally.coil.running = true ∧ s.tally.coil.current ≤ 1900
      ∧ (withCoil .cutting s).coil.openCoil.state ≠ .opened ∧ s.coil.openCoil.state = .opened ∧ s.coil.queue.length < 16
      ∧ (injecting 3 0 s).iqdHeld < 4 ∧ 4 ≤ (injecting 4 0 s).iqdHeld ∧ 16 ≤ full.coil.queue.length
      ∧ s.tally.mark.running = true ∧ s.tally.mark.current ≤ 1000
      ∧ (1000 - s.tally.mark.current) % s.tally.mark.preset ≤ s.coil.openCoil.length := by
  decide +kernel

/-- The address of a role: none maps it, or 5 is the lowest that does and 9 is another. -/
theorem witness_CoilAndMarkUnderflow_addresses :
    let t : Tables := { plant .rope with stations := (plant .rope).stations.set 9 { role := .cutter, unit := 0, side := .d } }
    (∀ a, (Tables.powerUp.station a).role ≠ .cutter) ∧ Role.cutter ≠ .unused
      ∧ (t.station (5 : Addr).toNat).role = .cutter ∧ (t.station 9).role = .cutter
      ∧ (∀ b, b < (5 : Addr).toNat → (t.station b).role ≠ .cutter) :=
  ⟨fun a => by rw [powerUp_unused]; decide, by decide +kernel⟩

theorem witness_TimeCounters :
    let watch (n m : Nat) (cut : Bool) : State := { withCoil .cutting (site .run .rope) with
      tally.haulwatch := { running := true, current := n, preset := 500, excess := 0 }
      tally.cutwait := { running := cut, current := m, preset := 2000, excess := 0 } }
    let due (c : OneShot) : Prop := c.running = true ∧ c.current ≤ 1
    (∀ n m cut, (watch n m cut).resetIn = false) ∧ (watch 2 2 true).tally.haulwatch.running = true
      ∧ (watch 2 2 true).tally.cutwait.running = true
      ∧ ¬due (watch 2 2 true).tally.haulwatch ∧ ¬due (watch 2 2 true).tally.cutwait
      ∧ due (watch 1 2 true).tally.haulwatch ∧ ¬due (watch 1 2 true).tally.cutwait
      ∧ due (watch 1 0 false).tally.haulwatch ∧ ¬due (watch 1 0 false).tally.cutwait
      ∧ ¬due (watch 2 1 true).tally.haulwatch ∧ due (watch 2 1 true).tally.cutwait
      ∧ due (watch 1 1 true).tally.haulwatch ∧ due (watch 1 1 true).tally.cutwait :=
  ⟨fun _ _ _ => rfl, by decide +kernel⟩

theorem witness_RowdoneCounted :
    let s := site .run .twineNet
    let at_ (rows : Nat) (i : StepIndex) (held : Bool) (last : Nat) : State := { s with
      mesh.cursor := { s.mesh.cursor with
        rowsDone := rows, stepIndex := i, held := held, bandLast := last, expected := some 9, pitchRef := some 2000 } }
    let step (i : StepIndex) := s.tables.meshRow i
    let linked (i : StepIndex) : State := { at_ 4 0 false 20 with
      tables.mesh := s.tables.mesh.set 0 { meshStep with next := some i } }
    let late : State := { s with mesh.cursor.expected := some 65535 }
    let listing (n : Nat) : List Byte := [0, 254, BitVec.ofNat 8 n] ++ List.replicate (2 * min n 14) 0
    (s.resetIn = false ∧ 3 ≤ ([0, 9, 0] : List Byte).length ∧ numberAt [0, 9, 0] 3 1 = 0 ∧ s.mode = .run ∧ s.mesh.active = true
        ∧ s.mesh.misses = [] ∧ s.mesh.cursor.expected = none ∧ s.mesh.cursor.pitchRef = none
        ∧ (at_ 0 0 false 20).mesh.cursor.expected = some (numberAt [0, 9, 0] 1 2)
        ∧ (at_ 0 0 false 20).mesh.cursor.pitchRef = some 2000 ∧ (at_ 0 0 false 20).product.rowPitch = 0)
      ∧ ((at_ 4 0 true 20).mesh.cursor.held = true ∧ 1 % (step 0).taperEvery ≠ 0 ∧ 1 < (step 0).rows
        ∧ (at_ 2 0 false 20).mesh.cursor.held = false ∧ 3 % (step 0).taperEvery = 0 ∧ 3 < (step 0).rows
        ∧ ((10 : Int) - (step 0).widenLeft ≥ 0 ∧ (510 : Int) + (step 0).widenRight ≤ 511)
        ∧ ¬((511 : Int) + (step 0).widenRight ≤ 511) ∧ (at_ 2 0 false 511).mesh.cursor.bandLast = 511
        ∧ 5 % (step 0).taperEvery ≠ 0 ∧ (step 0).rows ≤ 5 ∧ (step 0).next = none
        ∧ ((linked 1).tables.meshRow 0).next = some 1 ∧ ((linked 1).tables.meshRow 1).valid = true
        ∧ ((linked 1).tables.meshRow 1).first ≤ ((linked 1).tables.meshRow 1).last
        ∧ ((linked 2).tables.meshRow 0).next = some 2 ∧ ((linked 2).tables.meshRow 2).valid = false)
      ∧ (late.resetIn = false ∧ late.mode = .run ∧ late.mesh.active = true ∧ late.mesh.cursor.expected = some 65535
        ∧ (∀ n ∈ [0, 1, 13, 14, 15, 255], 3 + 2 * min (numberAt (listing n) 3 1) 14 ≤ (listing n).length
          ∧ 255 = (numberAt (listing n) 1 2 + 65536 - 65535) % 65536)) := by
  decide +kernel

theorem witness_MissingKnotRecorded :
    let net := site .run .twineNet
    let first : State := { net with mesh.cursor := { net.mesh.cursor with held := true, phase := 1 } }
    let t : State := { net with
      mesh.cursor := { net.mesh.cursor with held := true, expected := some 9, pitchRef := some 2000, phase := 1 } }
    let width := (t.tables.meshRow 0).selvedgeWidth
    let missed (n : Nat) : State := { t with mesh.misses := [{ position := 15, misses := n, flagged := false }] }
    (∀ s, s = first ∨ s = t ∨ s = missed 1 ∨ s = missed 2 → s.resetIn = false ∧ s.mode = .run ∧ s.mesh.active = true
        ∧ s.mesh.cursor.held = true ∧ s.mesh.cursor.bandFirst = 10 ∧ s.mesh.cursor.bandLast = 20
        ∧ s.mesh.cursor.phase ≠ 0 ∧ s.product.needleLimit = 3 ∧ s.product.rowPitch = 0)
      ∧ first.mesh.cursor.expected = none ∧ first.mesh.cursor.pitchRef = none ∧ first.mesh.misses = []
      ∧ t.mesh.cursor.expected = some (numberAt [0, 9, 1, 0, 15] 1 2) ∧ t.mesh.misses = []
      ∧ (∀ p : Byte, 5 ≤ [0, 9, 1, 0, p].length ∧ numberAt [0, 9, 1, 0, p] 3 1 = 1 ∧ numberAt [0, 9, 1, 0, p] 4 2 = p.toNat)
      ∧ ¬(10 ≤ 21 ∧ 21 ≤ 20) ∧ 11 < 10 + width ∧ ¬(12 < 10 + width ∨ 20 < 12 + width)
      ∧ 20 < 19 + width ∧ ¬(18 < 10 + width ∨ 20 < 18 + width)
      ∧ (missed 1).mesh.misses = [{ position := 15, misses := 1, flagged := false }] ∧ 1 + 1 < 3
      ∧ (missed 2).mesh.misses = [{ position := 15, misses := 2, flagged := false }] ∧ 3 ≤ 2 + 1 := by
  refine ⟨?_, by decide +kernel⟩
  rintro _ (rfl | rfl | rfl | rfl) <;> decide +kernel

theorem witness_CutdoneUnexpected :
    (site .run .rope).resetIn = false ∧ ([0, 1, 0] : List Byte).length < 4 ∧ 4 ≤ ([0, 2, 0, 0] : List Byte).length
      ∧ (withCoil .cutting (site .run .rope)).coil.openCoil.number ≠ numberAt [0, 2, 0, 0] 1 2
      ∧ (site .run .rope).coil.openCoil.state ≠ .cutting := by
  decide +kernel

/-- The plant with the coil being cut and a next product waiting. -/
def changing (next : Option Slot) (take : Bool) : State :=
  { withCoil .cutting (site .run .rope) with coil.next := next, coil.pendingTake := take }

theorem witness_CutdoneCloses :
    let s := changing none false
    let pl : List Byte := [0, 1, 0, 40]
    let defect : Defect := { kind := .layDrift, offset := 2960, source := some 0, extent := 0, repeats := 1, points := 2 }
    let marked : State := { s with coil.openCoil.defects := [defect], coil.openCoil.points := 2 }
    let long : State := { s with coil.openCoil.length := 9000 }
    let net : State := withHead (headIn .broken) { withCoil .cutting (site .halted .twineNet) with coil.next := some 0 }
    let older : State := { changing none true with coil.queue := [queued 8 .labelled, queued 9 .closed] }
    let last := s.coil.openCoil.close s.product 2960
    (older.coil.pendingTake = true ∧ older.iqdHeld < 4
        ∧ older.coil.queue ++ [last] = [queued 8 .labelled] ++ queued 9 .closed :: [last]
        ∧ (∀ x ∈ [queued 8 .labelled], x.state ≠ .closed) ∧ (queued 9 .closed).state = .closed
        ∧ (changing none true).coil.queue ++ [last] = [] ++ last :: [] ∧ last.state = .closed)
      ∧ (s.resetIn = false ∧ 4 ≤ pl.length ∧ s.coil.openCoil.number = numberAt pl 1 2 ∧ s.coil.openCoil.state = .cutting
        ∧ ((marked.coil.openCoil.defects.filter (fun e => 2960 ≤ e.offset)).map Defect.points).sum ≤ marked.coil.openCoil.points)
      ∧ (s.coil.pendingTake = false ∧ (changing none true).coil.pendingTake = true ∧ (changing none true).iqdHeld < 4
        ∧ 4 ≤ (injecting 4 0 (changing none true)).iqdHeld ∧ (injecting 3 0 (changing none true)).iqdHeld < 4)
      ∧ (s.product.cutLead + min (numberAt pl 3 2) s.coil.openCoil.length < s.product.coilTarget
        ∧ s.product.coilTarget ≤ long.product.cutLead + min (numberAt [0, 1, 19, 36] 3 2) long.coil.openCoil.length
        ∧ long.product.cutLead + min (numberAt [0, 1, 19, 35] 3 2) long.coil.openCoil.length < s.product.coilTarget
        ∧ s.coil.openCoil.length < numberAt [0, 1, 11, 185] 3 2 ∧ numberAt [0, 1, 11, 184] 3 2 ≤ s.coil.openCoil.length)
      ∧ (s.coil.next = none ∧ (changing (some 1) false).coil.next = some 1
        ∧ examineProduct (changing (some 1) false).tables 1 ≠ none
        ∧ (changing (some 0) false).coil.next = some 0 ∧ examineProduct (changing (some 0) false).tables 0 = none)
      ∧ (net.resetIn = false ∧ net.coil.openCoil.number = numberAt pl 1 2 ∧ net.coil.openCoil.state = .cutting
        ∧ net.coil.next = some 0 ∧ examineProduct net.tables 0 = none ∧ (net.tables.product 0).kind = .twineNet
        ∧ ((changing (some 0) false).tables.product 0).kind = .rope
        ∧ (net.head 0).state = .broken ∧ (s.head 0).state ≠ .broken) := by
  decide +kernel

theorem witness_TakeAnswered :
    let s := site .run .rope
    let l := [queued 9 .labelled, queued 10 .closed]
    s.resetIn = false ∧ (changing none true).coil.pendingTake = true ∧ s.coil.pendingTake = false
      ∧ 4 ≤ (injecting 4 0 s).iqdHeld ∧ (injecting 3 0 s).iqdHeld < 4 ∧ (∀ r ∈ [queued 9 .labelled], r.state ≠ .closed)
      ∧ l = [queued 9 .labelled] ++ queued 10 .closed :: [] ∧ (∀ x ∈ [queued 9 .labelled], x.state ≠ .closed)
      ∧ (queued 10 .closed).state = .closed := by
  decide +kernel

theorem witness_PackedHandled :
    let s := { site .run .rope with coil.queue := [queued 9 .labelled, queued 10 .closed] }
    let waits := { site .run .rope with coil.queue := [queued 9 .closed] }
    let stuck (m : Mode) : State := withCoil .cutWaitRoom { site m .rope with coil.queue := [queued 9 .labelled] }
    let kept := withFaults [record .queueFull (some 1) .creep] (stuck .creep)
    let latched : State := { stuck .creep with store.latchPending := some .halt }
    (∀ before r after, waits.coil.queue = before ++ r :: after → r.state = .labelled →
          (∀ x ∈ before, x.state ≠ .labelled) → r.number ≠ 9)
      ∧ (s.resetIn = false ∧ ([9] : List Byte).length < 2 ∧ 2 ≤ ([0, 9] : List Byte).length ∧ numberAt [0, 9] 1 2 = 9
        ∧ (s.stationOf 6).side = .d ∧ (s.stationOf 1).side = .u
        ∧ (∀ r ∈ s.coil.queue, r.number ≠ 11) ∧ s.coil.queue = [] ++ queued 9 .labelled :: [queued 10 .closed]
        ∧ (queued 9 .labelled).number = 9 ∧ (queued 9 .labelled).state = .labelled ∧ s.coil.openCoil.state ≠ .cutWaitRoom
        ∧ (∃ r ∈ waits.coil.queue, r.number = 9))
      ∧ ((stuck .run).coil.queue = [] ++ queued 9 .labelled :: [] ∧ (stuck .run).coil.openCoil.state = .cutWaitRoom
        ∧ ¬((stuck .run).mode = .creep) ∧ ¬(∀ f ∈ kept.faults.list, f.classTaken ≠ .creep)
        ∧ (stuck .creep).mode = .creep ∧ (∀ f ∈ (stuck .creep).faults.list, f.classTaken ≠ .creep)
        ∧ (stuck .creep).store.latchPending ≠ some .halt ∧ latched.store.latchPending = some .halt
        ∧ (∀ f ∈ latched.faults.list, f.classTaken ≠ .creep)) := by
  refine ⟨?_, by decide +kernel⟩
  intro before r after h x
  have m : r ∈ [queued 9 .closed] := by
    show r ∈ ({ site .run .rope with coil.queue := [queued 9 .closed] } : State).coil.queue
    rw [h]; simp
  rw [List.mem_singleton.mp m] at x
  exact absurd x (by decide)

/-- A defect entry of a coil. -/
def drift (offset : Nat) : Defect :=
  { kind := .layDrift, offset := offset, source := some 0, extent := 10, repeats := 1, points := 2 }

theorem witness_DefectAdded :
    let l := [drift 0, drift 500]
    l = [drift 0] ++ drift 500 :: [] ∧ (drift 500).kind = .layDrift ∧ (drift 500).source = some 0
      ∧ 610 ≤ (drift 500).offset + (drift 500).extent + 100
      ∧ (∀ before e after, [drift 500] = before ++ e :: after → e.offset + e.extent + 100 < 611)
      ∧ (List.replicate 23 (drift 500)).length < 24 ∧ 24 ≤ (List.replicate 24 (drift 500)).length
      ∧ (∀ before e after, List.replicate 24 (drift 500) = before ++ e :: after → e.offset + e.extent + 100 < 611) := by
  refine ⟨by decide, by decide, by decide, by decide, ?_, by decide, by decide, ?_⟩
  · intro before e after h
    have m : e ∈ [drift 500] := by rw [h]; simp
    rw [List.mem_singleton.mp m]; decide
  · intro before e after h
    have m : e ∈ List.replicate 24 (drift 500) := by rw [h]; simp
    rw [List.eq_of_mem_replicate m]; decide

theorem witness_OccurrenceHandled :
    let s := site .run .rope
    let t := withFaults [record .haulSilent none .halt] s
    let waits := withFaults [{ record .haulSilent none .halt with notified := false }] s
    let full := withFaults (List.replicate 16 (record .haulSilent none .halt)) s
    s.tables.faultClass .layDrift = .note ∧ s.tables.faultClass .haulSilent = .halt ∧ s.tables.faultClass .queueFull = .creep
      ∧ s.tables.faultClass .haulReverse = .alarm ∧ FaultKind.isDefect .haulSilent = false
      ∧ FaultKind.isDefect .layDrift = true
      ∧ (∃ r ∈ t.faults.list, r.kind = .haulSilent ∧ r.source = none)
      ∧ (∀ r ∈ full.faults.list, ¬(r.kind = .queueFull ∧ r.source = some 1)) ∧ 16 ≤ full.faults.list.length
      ∧ (∀ r ∈ t.faults.list, ¬(r.kind = .queueFull ∧ r.source = some 1)) ∧ t.faults.list.length < 16
      ∧ (injecting 0 3 t).faults = t.faults ∧ (injecting 0 3 t).iquHeld < 4 ∧ 4 ≤ (injecting 0 4 t).iquHeld
      ∧ (∀ r ∈ t.faults.list, r.notified = true ∨ r.queued = true)
      ∧ ¬(∀ r ∈ waits.faults.list, r.notified = true ∨ r.queued = true)
      ∧ s.mode = .run ∧ s.store.latchPending ≠ some .halt := by
  decide +kernel

/-- An older record waits with one entry of IQU free, with two, and with none. -/
theorem witness_OccurrenceHandled_waiting (n : Fin 3) :
    let waits := injecting 0 (2 + n) (withFaults [{ record .haulSilent none .halt with notified := false }] (site .run .rope))
    waits.FaultsListed ∧ waits.iquHeld = 2 + n ∧ (∀ r ∈ waits.faults.list, ¬(r.kind = .queueFull ∧ r.source = some 1))
      ∧ waits.faults.list.length < 16 ∧ waits.tables.faultClass .queueFull ≠ .note := by
  unfold State.FaultsListed
  revert n
  decide +kernel

theorem witness_FaultsCleared :
    let s := withFaults [record .queueFull (some 1) .creep] (site .creep .rope)
    let waits : State := { s with store.latchPending := some .halt }
    s.TakesRequests ∧ waits.TakesRequests ∧ waits.store.latchPending = some .halt
      ∧ s.mode = .creep ∧ s.store.latchPending ≠ some .halt ∧ s.coil.openCoil.state ≠ .cutWaitRoom
      ∧ (withCoil .cutWaitRoom s).coil.openCoil.state = .cutWaitRoom
      ∧ FaultKind.ofNumber (20 : Byte).toNat = none ∧ FaultKind.ofNumber (14 : Byte).toNat = some .queueFull
      ∧ s.faults.list.filter (fun r => !decide (r.kind = .queueFull ∧ r.source = some (1 : BitVec 16).toNat)) ≠ s.faults.list
      ∧ s.faults.list.filter (fun r => !decide (r.kind = .queueFull ∧ r.source = some (2 : BitVec 16).toNat)) = s.faults.list :=
  ⟨takesRequests_of_open (by decide +kernel) rfl (by decide +kernel),
    takesRequests_of_open (by decide +kernel) rfl (by decide +kernel), by decide +kernel⟩

theorem witness_MreqHandled :
    let s := site .run .rope
    let held : State := { injecting 0 4 s with store.hold := some (bare 120 1 16) }
    s.TakesFrames ∧ held.TakesFrames ∧ (injecting 0 4 s).TakesFrames ∧ held.store.hold.isSome = true
      ∧ (injecting 0 4 s).store.hold = none ∧ (injecting 0 4 s).iquHeld = 4 ∧ (injecting 0 3 s).iquHeld < 4
      ∧ parseRequest [99] = none ∧ parseRequest [17, 5] = some (.setAddress 5)
      ∧ Request.availableIn (.setAddress 5) s.mode = false ∧ parseRequest [3, 1] = some (.setMode 1)
      ∧ Request.availableIn (.setMode 1) s.mode = true :=
  ⟨(site_takesRequests _ _).1, takesFrames_of_open (by decide +kernel), takesFrames_of_open (by decide +kernel),
    by decide +kernel⟩

theorem witness_ReadRowAnswered :
    (site .run .rope).TakesRequests ∧ TableName.ofCode (0 : Byte).toNat = none ∧ TableName.ofCode (8 : Byte).toNat = none
      ∧ TableName.ofCode (7 : Byte).toNat = some .faults ∧ TableName.hasRow .faults (0 : BitVec 16).toNat = false
      ∧ TableName.hasRow .faults (20 : BitVec 16).toNat = false ∧ (0 : BitVec 16).toNat = 0 ∧ (127 : BitVec 16).toNat < 128
      ∧ (31 : BitVec 16).toNat < 32 ∧ (7 : BitVec 16).toNat < 8 ∧ (191 : BitVec 16).toNat < 192 ∧ (63 : BitVec 16).toNat < 64
      ∧ 1 ≤ (1 : BitVec 16).toNat ∧ (19 : BitVec 16).toNat ≤ 19
      ∧ 8 ≤ 7 * (2 : Byte).toNat ∧ 7 * (1 : Byte).toNat < 8 ∧ 7 * (3 : Byte).toNat < 22 ∧ 22 ≤ 7 * (4 : Byte).toNat :=
  ⟨site_takesRequests _ _, by decide⟩

theorem witness_ReadHeadAnswered :
    (site .run .rope).TakesRequests ∧ 24 ≤ (24 : Byte).toNat ∧ (23 : HeadUnit).val = (23 : Byte).toNat :=
  ⟨site_takesRequests _ _, by decide⟩

theorem witness_ReadFaultsAnswered :
    let s := withFaults [record .queueFull (some 1) .creep] (site .run .rope)
    s.TakesRequests ∧ (2 : Byte) ≠ 0 ∧ (2 : Byte) ≠ 1 ∧ 15 < (16 : Byte).toNat ∧ (15 : Byte).toNat ≤ 15
      ∧ s.faults.list.length ≤ (1 : Byte).toNat ∧ s.faults.list[(0 : Byte).toNat]? = some (record .queueFull (some 1) .creep)
      ∧ 19 < (20 : Byte).toNat ∧ 1 ≤ (1 : Byte).toNat ∧ (19 : Byte).toNat ≤ 19 :=
  ⟨takesRequests_of_open (by decide +kernel) rfl (by decide +kernel), by decide +kernel⟩

theorem witness_ReadCoilAnswered :
    let s := { site .run .rope with coil.queue := [{ queued 9 .closed with defects := [drift 0] }] }
    let named (record : Byte) := if record = 255 then some s.coil.openCoil else s.coil.queue[record.toNat]?
    s.TakesRequests ∧ named 1 = none ∧ named 255 = some s.coil.openCoil
      ∧ named 0 = some { queued 9 .closed with defects := [drift 0] } ∧ 24 < (25 : Byte).toNat
      ∧ 1 ≤ (1 : Byte).toNat ∧ ([drift 0] : List Defect)[(1 : Byte).toNat - 1]? = some (drift 0)
      ∧ (24 : Byte).toNat ≤ 24 ∧ ([drift 0] : List Defect).length < (24 : Byte).toNat :=
  ⟨takesRequests_of_open (by decide +kernel) rfl (by decide +kernel), by decide +kernel⟩

theorem witness_ReadMeshAnswered :
    let s := site .run .twineNet
    let t : State := { s with mesh.cursor.expected := some 65535 }
    s.TakesRequests ∧ t.TakesRequests ∧ t.mesh.cursor.expected = some 65535 ∧ s.mesh.cursor.expected = none
      ∧ 2 ≤ (2 : Byte).toNat ∧ (6 : Byte).toNat ≤ 6 ∧ 6 < (7 : Byte).toNat :=
  ⟨site_takesRequests _ _, takesRequests_of_open (by decide +kernel) rfl (by decide +kernel), by decide +kernel⟩

theorem witness_ReadStatusAnswered : (site .run .rope).TakesRequests ∧ 4 < (5 : Byte).toNat :=
  ⟨site_takesRequests _ _, by decide⟩

theorem witness_PortCountersReadAndCleared :
    (site .run .rope).TakesRequests ∧ 1 < (2 : Byte).toNat ∧ (0 : Byte).toNat = 0 ∧ (1 : Byte).toNat = 1 :=
  ⟨site_takesRequests _ _, by decide⟩

theorem witness_FieldsWritten :
    let s := site .parked .rope
    let run := site .run .rope
    let next : State := { run with coil.next := some 1 }
    let ps : List (Byte × BitVec 32) := [(0, 1), (3, 20000)]
    let good : List (Byte × BitVec 32) := [(0, 1), (3, 2000)]
    let line : List (Byte × BitVec 32) := [(4, 500), (3, 5)]
    (s.TakesRequests ∧ run.TakesRequests ∧ next.TakesRequests ∧ State.reset.TakesRequests
        ∧ (∀ q ∈ [((4 : Byte), (500 : BitVec 32))], q.1 ≠ 3) ∧ (∃ q ∈ line, q.1 = 3))
      ∧ (State.reset.tables.InRange ∧ (∀ q ∈ good, fieldAllowed (fieldRanges .lays 191) q.1.toNat q.2.toNat)
        ∧ ¬(∀ q ∈ ps, fieldAllowed (fieldRanges .lays 191) q.1.toNat q.2.toNat))
      ∧ (State.reset.mode = .parked ∧ line ≠ [] ∧ line.length ≤ 5 ∧ (line.map Prod.fst).Nodup
        ∧ (s.tables.writeRow .line (0 : BitVec 16).toNat line).isSome = true)
      ∧ (ps ≠ [] ∧ ps.length ≤ 5 ∧ (ps.map Prod.fst).Nodup ∧ good ≠ [] ∧ good.length ≤ 5 ∧ (good.map Prod.fst).Nodup
        ∧ TableName.ofCode (0 : Byte).toNat = none ∧ TableName.ofCode (5 : Byte).toNat = some .lays
        ∧ TableName.hasRow .lays (192 : BitVec 16).toNat = false ∧ TableName.hasRow .lays (191 : BitVec 16).toNat = true
        ∧ s.mode = .parked ∧ run.mode ≠ .parked ∧ TableName.ofCode (6 : Byte).toNat = some .mesh
        ∧ TableName.hasRow .mesh (63 : BitVec 16).toNat = true)
      ∧ (TableName.ofCode (4 : Byte).toNat = some .products ∧ TableName.hasRow .products (1 : BitVec 16).toNat = true
        ∧ run.coil.current.val = (0 : BitVec 16).toNat ∧ next.coil.next.map Fin.val = some (1 : BitVec 16).toNat
        ∧ ¬(run.coil.current.val = 1 ∨ run.coil.next.map Fin.val = some 1)
        ∧ run.coil.current.val = (23 : BitVec 16).toNat / 24 ∧ next.coil.next.map Fin.val = some ((47 : BitVec 16).toNat / 24)
        ∧ ¬(run.coil.current.val = (24 : BitVec 16).toNat / 24 ∨ run.coil.next.map Fin.val = some ((24 : BitVec 16).toNat / 24))
        ∧ TableName.hasRow .lays (23 : BitVec 16).toNat = true ∧ TableName.hasRow .lays (47 : BitVec 16).toNat = true
        ∧ TableName.hasRow .lays (24 : BitVec 16).toNat = true)
      ∧ (s.tables.writeRow .lays (191 : BitVec 16).toNat ps = none ∧ run.tables.writeRow .lays (24 : BitVec 16).toNat ps = none
        ∧ (s.tables.writeRow .lays (191 : BitVec 16).toNat good).isSome = true
        ∧ (run.tables.writeRow .lays (24 : BitVec 16).toNat good).isSome = true
        ∧ (run.tables.writeRow .products (1 : BitVec 16).toNat [(8, 100)]).isSome = true
        ∧ run.tables.writeRow .products (1 : BitVec 16).toNat [(8, 99)] = none
        ∧ (s.tables.writeRow .line (0 : BitVec 16).toNat [(4, 500)]).isSome = true ∧ TableName.lays ≠ .line)
      ∧ (100 ≤ (100 : BitVec 32).toNat ∧ (10000000 : BitVec 32).toNat ≤ 10000000 ∧ (99 : BitVec 32).toNat < 100
        ∧ 10000000 < (10000001 : BitVec 32).toNat ∧ 1 ≤ (1 : BitVec 32).toNat ∧ (12 : BitVec 32).toNat ≤ 12) := by
  refine ⟨⟨site_takesRequests _ _, site_takesRequests _ _, takesRequests_of_open (by decide +kernel) rfl (by decide +kernel),
    takesRequests_of_open (by decide +kernel) rfl (by decide +kernel), by simp, ⟨(3, 5), by simp, rfl⟩⟩,
    ⟨powerUp_inRange, ?_, fun h => absurd (h (3, 20000) (by simp)).2 (by decide)⟩, by decide +kernel, by decide +kernel⟩
  intro q hq
  simp only [List.mem_cons, List.not_mem_nil, or_false] at hq
  rcases hq with rfl | rfl
  · exact ⟨by decide, by decide⟩
  · exact ⟨by decide, by decide⟩

/-- The plant in PARKED with its tally not loaded, this much in the open coil, in this state, and this many coils
queued. -/
def fresh (length : Nat) (x : CoilState) (coils : Nat) : State :=
  let s := withCoil x (site .parked .rope)
  { s with coil.openCoil.length := length, coil.queue := List.replicate coils (queued 9 .closed), tally.loaded := false }

/-- It takes requests. -/
theorem fresh_takesRequests (length : Nat) (x : CoilState) (coils : Nat) : (fresh length x coils).TakesRequests :=
  (site_takesRequests .parked .rope).imp_left (fun h => h)

theorem witness_ModeSet :
    let bad := { site .parked .rope with coil.current := 1 }
    let netOff : State := { site .parked .twineNet with mesh := Mesh.cleared }
    let ropeOn : State := { site .parked .rope with mesh.active := true }
    (∀ m, (site m .rope).TakesRequests ∧ (site m .rope).mode = m) ∧ bad.TakesRequests
      ∧ (∀ n x k, (fresh n x k).TakesRequests ∧ (fresh n x k).mode = .parked ∧ (fresh n x k).tally.loaded = false
        ∧ (fresh n x k).coil.openCoil.state = x ∧ (fresh n x k).coil.queue.length = k)
      ∧ (netOff.TakesRequests ∧ ropeOn.TakesRequests)
      ∧ (netOff.mode = .parked ∧ netOff.examineAll = none ∧ netOff.tally.loaded = true ∧ netOff.mesh.active = false
        ∧ ropeOn.mode = .parked ∧ ropeOn.examineAll = none ∧ ropeOn.tally.loaded = true
        ∧ ropeOn.product.kind = .rope ∧ (site .parked .twineNet).mesh.active = true
        ∧ (site .parked .rope).mesh.active = false)
      ∧ 2 < (3 : Byte).toNat
      ∧ bad.mode = .parked ∧ bad.examineAll.isSome = true ∧ (site .parked .rope).examineAll = none
      ∧ (site .parked .rope).tally.loaded = true ∧ (site .parked .twineNet).examineAll = none
      ∧ (site .parked .twineNet).product.kind = .twineNet
      ∧ (fresh 4899 .opened 0).examineAll = none ∧ (fresh 4900 .opened 16).examineAll = none
      ∧ (fresh 4900 .cutting 15).examineAll = none
      ∧ (fresh 4899 .opened 0).product.cutLead + 4899 < (fresh 4899 .opened 0).product.coilTarget
      ∧ (fresh 4900 .opened 0).product.coilTarget ≤ (fresh 4900 .opened 0).product.cutLead + 4900 :=
  ⟨fun m => ⟨site_takesRequests m _, rfl⟩, takesRequests_of_open (by decide +kernel) rfl (by decide +kernel),
    fun n x k => ⟨fresh_takesRequests n x k, rfl, rfl, rfl, List.length_replicate⟩,
    ⟨takesRequests_of_open (by decide +kernel) rfl (by decide +kernel),
      takesRequests_of_open (by decide +kernel) rfl (by decide +kernel)⟩, by decide +kernel, by decide +kernel⟩

/-- The plant with a second MASTER at address 2, and with a row at address 127. -/
theorem witness_ModeSet_examination :
    let s := site .parked .rope
    let t : Tables := { s.tables with stations := s.tables.stations.set 2 { role := .master, unit := 0, side := .u } }
    let u : Tables := { s.tables with stations := s.tables.stations.set 127 { role := .other, unit := 0, side := .d } }
    (stationFaulty 120 t 2 ∧ ∀ b, b < 2 → ¬stationFaulty 120 t b)
      ∧ (stationFaulty 120 u 127 ∧ stationFaulty 3 s.tables 3)
      ∧ ((∀ a, ¬stationFaulty 120 Tables.powerUp a) ∧ ∀ a, (Tables.powerUp.station a).role ≠ .master)
      ∧ ((∀ a, ¬stationFaulty 120 s.tables a) ∧ ∃ a, (s.tables.station a).role = .master)
      ∧ examineProduct s.tables 1 ≠ none ∧ examineProduct s.tables 0 = none := by
  refine ⟨⟨.inr (.inl ⟨by decide +kernel, .inr ⟨1, by decide, by decide +kernel⟩⟩), ?_⟩,
    ⟨.inl ⟨.inl rfl, by decide +kernel⟩, .inl ⟨.inr rfl, by decide +kernel⟩⟩, ⟨?_, ?_⟩,
    ⟨stationFaulty_of_passes (by decide +kernel), 1, by decide +kernel⟩, by decide +kernel⟩
  · intro b hb
    have : b = 0 ∨ b = 1 := by omega
    rcases this with rfl | rfl
    · rintro (⟨h, _⟩ | ⟨h, _⟩ | ⟨h, _⟩ | ⟨h, _⟩)
      · exact absurd h (by decide)
      · exact absurd h (by decide +kernel)
      · exact absurd h (by decide +kernel)
      · exact absurd h (by decide +kernel)
    · rintro (⟨h, _⟩ | ⟨_, h | ⟨b, hb, h⟩⟩ | ⟨h, _⟩ | ⟨h, _⟩)
      · exact absurd h (by decide)
      · exact absurd rfl h
      · rw [show b = 0 from by omega] at h
        exact absurd h (by decide +kernel)
      · exact absurd h (by decide +kernel)
      · exact absurd h (by decide +kernel)
  · intro a h
    unfold stationFaulty at h
    rw [powerUp_unused] at h
    simp at h
  · intro a
    rw [powerUp_unused]
    decide

/-- The product table with this product and these mesh rows, and one more lay row in use. -/
def examined (p : ProductRow) (mesh : List MeshRow) (units : List Nat) : Tables :=
  { plant p.kind with
    products := p :: List.replicate 7 ProductRow.powerUp
    lays := (List.range 192).map (fun k => { LayRow.powerUp with inUse := units.contains k })
    mesh := mesh ++ List.replicate 60 MeshRow.powerUp }

/-- A path of steps 0 and 1. -/
def firstSteps (k : Nat) : StepIndex := if k = 0 then 0 else 1

theorem witness_ProductSet_examination :
    let net := product .twineNet
    let bad := { meshStep with valid := false }
    let onward (j : StepIndex) := { meshStep with next := some j }
    let good (p : ProductRow) := p.valid = true ∧ p.gradeB < p.gradeC ∧ p.gradeC < p.rejectAt
    let kept := examined (product .rope) [] [0]
    (¬good { net with valid := false } ∧ ¬good { net with gradeB := 20 } ∧ ¬good { net with rejectAt := 20 } ∧ good net)
      ∧ (let t := examined (product .rope) [] [0, 5, 7]
        good (t.product 0) ∧ (t.layRow 0 5).inUse = true ∧ t.hasHead 5 = false
          ∧ ∀ v, v < (5 : HeadUnit) → (t.layRow 0 v).inUse = true → t.hasHead v = true)
      ∧ (∀ u, ¬((examined (product .rope) [] []).layRow 0 u).inUse = true)
      ∧ ((∃ u, (kept.layRow 0 u).inUse = true) ∧ (∀ u, (kept.layRow 0 u).inUse = true → kept.hasHead u = true)
        ∧ (kept.product 0).kind = .rope)
      ∧ (let t := examined net [bad] [0]
        (t.product 0).kind = .twineNet ∧ followsSteps t (t.product 0).startStep 0 firstSteps
          ∧ meshRowOk (t.meshRow (firstSteps 0)) = false)
      ∧ (let t := examined net [onward 1, bad] [0]
        followsSteps t (t.product 0).startStep 1 firstSteps ∧ meshRowOk (t.meshRow (firstSteps 0)) = true
          ∧ meshRowOk (t.meshRow (firstSteps 1)) = false)
      ∧ (let t := examined net [onward 1, onward 1] [0]
        followsSteps t (t.product 0).startStep 1 firstSteps ∧ meshRowOk (t.meshRow (firstSteps 1)) = true
          ∧ (t.meshRow (firstSteps 1)).next = some (firstSteps 1))
      ∧ (let t := examined net [onward 1, meshStep] [0]
        followsSteps t (t.product 0).startStep 1 firstSteps ∧ (t.meshRow (firstSteps 1)).next = none) := by
  have path {t : Tables} (h : (t.meshRow 0).next = some 1) : followsSteps t 0 1 firstSteps := by
    refine ⟨rfl, ?_, ?_⟩
    · intro k hk
      rw [show k = 0 from by omega]
      exact h
    · intro j k hj hk
      rw [show j = 0 from by omega, show k = 1 from by omega]
      decide
  refine ⟨by decide +kernel, by decide +kernel, by decide +kernel, by decide +kernel,
    ⟨by decide +kernel, ⟨rfl, nofun, by omega⟩, by decide +kernel⟩, ⟨path (by decide +kernel), by decide +kernel⟩,
    ⟨path (by decide +kernel), by decide +kernel⟩, path (by decide +kernel), by decide +kernel⟩

theorem witness_ProductSet :
    let empty : State := { site .parked .rope with coil.openCoil.length := 0, tally.haulTotal := 0 }
    let gone := withHead (headIn .broken) empty
    let net : State := { site .parked .twineNet with coil.openCoil.length := 0, tally.haulTotal := 0 }
    let short (coils : Nat) : State := { empty with
      coil.queue := List.replicate coils (queued 9 .closed)
      tables := { empty.tables with products := empty.tables.products.set 0 { product .rope with coilTarget := 100 } } }
    (empty.TakesRequests ∧ gone.TakesRequests ∧ (short 15).TakesRequests ∧ (short 16).TakesRequests
        ∧ (injecting 3 0 (short 15)).TakesRequests ∧ (injecting 4 0 (short 15)).TakesRequests ∧ net.TakesRequests)
      ∧ (net.mode = .parked ∧ net.coil.openCoil.state = .opened ∧ net.coil.openCoil.length = 0
        ∧ examineProduct net.tables 0 = none ∧ (net.tables.product 0).kind = .twineNet)
      ∧ (site .run .rope).mode ≠ .parked ∧ 7 < (8 : Byte).toNat
      ∧ (site .parked .rope).mode = .parked ∧ 0 < (site .parked .rope).coil.openCoil.length ∧ (7 : Byte).toNat ≤ 7
      ∧ (7 : Slot).val = (7 : Byte).toNat ∧ empty.mode = .parked ∧ empty.coil.openCoil.state = .opened
      ∧ empty.coil.openCoil.length = 0 ∧ (examineProduct empty.tables 7).isSome = true
      ∧ examineProduct empty.tables 0 = none ∧ (empty.tables.product 0).cutLead < (empty.tables.product 0).coilTarget
      ∧ (empty.head 0).state ≠ .broken ∧ (gone.head 0).state = .broken
      ∧ (short 15).mode = .parked ∧ (short 15).coil.openCoil.state = .opened ∧ (short 15).coil.openCoil.length = 0
      ∧ examineProduct (short 15).tables 0 = none
      ∧ ((short 15).tables.product 0).coilTarget ≤ ((short 15).tables.product 0).cutLead
      ∧ (short 15).coil.queue.length < 16 ∧ 16 ≤ (short 16).coil.queue.length
      ∧ (injecting 3 0 (short 15)).iqdHeld < 4 ∧ 4 ≤ (injecting 4 0 (short 15)).iqdHeld :=
  ⟨⟨takesRequests_of_open (by decide +kernel) rfl (by decide +kernel),
    takesRequests_of_open (by decide +kernel) rfl (by decide +kernel),
    takesRequests_of_open (by decide +kernel) rfl (by decide +kernel),
    takesRequests_of_open (by decide +kernel) rfl (by decide +kernel),
    takesRequests_of_open (by decide +kernel) rfl (by decide +kernel),
    takesRequests_of_open (by decide +kernel) rfl (by decide +kernel),
    takesRequests_of_open (by decide +kernel) rfl (by decide +kernel)⟩, by decide +kernel⟩

theorem witness_NextProductSet :
    let s := site .run .rope
    s.TakesRequests ∧ s.mode ≠ .parked ∧ (site .parked .rope).mode = .parked ∧ 7 < (254 : Byte).toNat ∧ (254 : Byte) ≠ 255
      ∧ (7 : Slot).val = (7 : Byte).toNat ∧ (examineProduct s.tables 7).isSome = true ∧ examineProduct s.tables 0 = none :=
  ⟨site_takesRequests _ _, by decide +kernel⟩

theorem witness_LineReleased :
    let s := withHead (headIn .broken) (site .halted .rope)
    let faulty := withFaults [record .haulSilent none .halt] s
    let latched : State := { s with store.latchInFlight := some .halt }
    s.TakesRequests ∧ faulty.TakesRequests ∧ latched.TakesRequests ∧ (site .run .rope).mode ≠ .halted ∧ s.mode = .halted
      ∧ (∃ r ∈ faulty.faults.list, r.classTaken = .halt) ∧ ¬(∃ r ∈ s.faults.list, r.classTaken = .halt)
      ∧ (latched.store.latchPending = some .halt ∨ latched.store.latchInFlight = some .halt)
      ∧ ¬(s.store.latchPending = some .halt ∨ s.store.latchInFlight = some .halt)
      ∧ (s.head 0).state = .broken ∧ (s.head 1).state ≠ .broken ∧ (site .halted .twineNet).product.kind = .twineNet
      ∧ s.product.kind = .rope :=
  ⟨takesRequests_of_open (by decide +kernel) rfl (by decide +kernel),
    takesRequests_of_open (by decide +kernel) rfl (by decide +kernel),
    takesRequests_of_open (by decide +kernel) rfl (by decide +kernel), by decide +kernel⟩

theorem witness_CutByHand :
    let s := site .run .rope
    let full : State := { s with coil.queue := List.replicate 16 (queued 9 .closed) }
    s.TakesRequests ∧ full.TakesRequests ∧ (injecting 3 0 s).TakesRequests ∧ (injecting 4 0 s).TakesRequests
      ∧ (withCoil .cutting s).coil.openCoil.state ≠ .opened ∧ s.coil.openCoil.state = .opened ∧ 0 < s.coil.openCoil.length
      ∧ s.coil.queue.length < 16 ∧ (injecting 3 0 s).iqdHeld < 4 ∧ 4 ≤ (injecting 4 0 s).iqdHeld ∧ 16 ≤ full.coil.queue.length :=
  ⟨site_takesRequests _ _, takesRequests_of_open (by decide +kernel) rfl (by decide +kernel),
    takesRequests_of_open (by decide +kernel) rfl (by decide +kernel),
    takesRequests_of_open (by decide +kernel) rfl (by decide +kernel), by decide +kernel⟩

theorem witness_AddressSet :
    let s := site .parked .rope
    let h := sending 17 [0] (.injected (.newAddress 9))
    let out : State := { s with portU.transmitter := some h }
    s.TakesRequests ∧ (site .run .rope).mode ≠ .parked ∧ s.mode = .parked ∧ 127 < (128 : Byte).toNat
      ∧ (126 : Byte) ≠ 0 ∧ (126 : Byte).toNat < 127 ∧ (s.tables.station (1 : Byte).toNat).role ≠ .unused
      ∧ (s.tables.station (126 : Byte).toNat).role = .unused ∧ out.resetIn = false
      ∧ out.portU.transmitter =
          some { frame := h.frame, origin := .injected (.newAddress 9), parity := false, released := false }
      ∧ out.store.hold = none ∧ (∀ r ∈ out.faults.list, r.notified = true ∨ r.queued = true)
      ∧ ({ out with store.hold := some (bare 120 1 16) }).store.hold = some (bare 120 1 16) :=
  ⟨site_takesRequests _ _, by decide +kernel⟩

theorem witness_ResetRequested :
    let h := sending 17 [0] (.injected .resetReply)
    (site .parked .rope).TakesRequests ∧ (site .parked .rope).mode = .parked ∧ (site .run .rope).mode ≠ .parked
      ∧ ({ site .parked .rope with portU.transmitter := some h }).portU.transmitter =
          some { frame := h.frame, origin := .injected .resetReply, parity := false, released := false } :=
  ⟨site_takesRequests _ _, by decide +kernel⟩

theorem witness_TransmitStarted :
    let s := site .halted .rope
    let go : FwdFrame := { frame := bare 127 1 8, action := .forward, destRole := none }
    s.resetIn = false ∧ s.portD.transmitter = none ∧ s.portD.holdIn = false ∧ s.portU.transmitter = none
      ∧ s.portU.holdIn = false ∧ ({ s with store.latchPending := some .halt }).store.latchPending = some .halt
      ∧ s.store.latchPending = none ∧ (injecting 1 1 s).store.iqd = (injected 1).headD ⟨bare 0 0 0, .plain⟩ :: []
      ∧ (injecting 1 1 s).store.iqu = (injected 1).headD ⟨bare 0 0 0, .plain⟩ :: []
      ∧ s.store.iqd = [] ∧ s.store.iqu = [] ∧ s.store.fqd = []
      ∧ ({ s with store.fqd := waiting 1 }).store.fqd = ⟨⟨7, 1, 99, []⟩, .forward, none⟩ :: [] ∧ (99 : Byte) ≠ 5 ∧ (99 : Byte) ≠ 8
      ∧ ({ s with store.fqu := waiting 1 }).store.fqu = ⟨⟨7, 1, 99, []⟩, .forward, none⟩ :: []
      ∧ ({ s with store.fqd := [go] }).store.fqd = [go] ∧ s.store.fqu = []
      ∧ ({ s with store.fqd := go :: waiting 1 }).store.fqd = go :: waiting 1 ∧ s.mode = .halted ∧ go.frame.kind = 8 := by
  decide +kernel

theorem witness_SetpointLimited :
    let e (a : Action) (r : Option Role) (pl : List Byte) : FwdFrame :=
      { frame := { dst := 3, src := 1, kind := 5, payload := pl }, action := a, destRole := r }
    let s (m : Mode) (x : FwdFrame) : State := { site m .rope with store.fqd := [x] }
    (∀ m x, (s m x).resetIn = false ∧ (s m x).portD.transmitter = none ∧ (s m x).portD.holdIn = false
        ∧ (s m x).store.latchPending = none ∧ (s m x).store.iqd = [] ∧ (s m x).store.fqd = x :: [] ∧ (s m x).mode = m)
      ∧ (∀ a r pl, (e a r pl).frame.kind = 5 ∧ (e a r pl).action = a ∧ (e a r pl).destRole = r)
      ∧ numberAt [0, 1] 1 2 ≠ 0 ∧ numberAt [0, 0] 1 2 = 0 ∧ Action.forward ≠ .clamp
      ∧ numberAt [1, 44] 1 2 ≤ (site .creep .rope).tables.line.creepHead
      ∧ (site .creep .rope).tables.line.creepHead < numberAt [1, 45] 1 2
      ∧ numberAt [0, 20] 1 2 ≤ (site .threading .rope).tables.line.creepHaul
      ∧ (site .threading .rope).tables.line.creepHaul < numberAt [0, 21] 1 2
      ∧ numberAt [3, 132] 1 2 ≤ (site .run .rope).product.maxHeadSpeed ∧ (site .run .rope).product.maxHeadSpeed < numberAt [3, 133] 1 2
      ∧ numberAt [2, 88] 1 2 ≤ (site .run .rope).product.maxHaulSpeed
      ∧ (site .run .rope).product.maxHaulSpeed < numberAt [2, 89] 1 2 :=
  ⟨fun _ _ => ⟨rfl, rfl, rfl, rfl, rfl, rfl, rfl⟩, fun _ _ _ => ⟨rfl, rfl, rfl⟩, by decide +kernel⟩

theorem witness_FrameDeparts :
    let s := site .run .rope
    let out (h : Holding) : State := { s with portU.transmitter := some h, portD.transmitter := some h }
    let cutreq := sending 9 [0, 1] (.injected .plain)
    let waits := withFaults [{ record .haulSilent none .halt with queued := true, notified := false }] s
    let freeing (n : Nat) (x : CoilState) (take : Bool) : State :=
      { injecting n 0 (withCoil x s) with portD.transmitter := some cutreq, coil.pendingTake := take }
    (∀ p, (s.port p).transmitter = none)
      ∧ (∀ n x take, (freeing n x take).resetIn = false ∧ (freeing n x take).portD.transmitter = some cutreq
        ∧ (freeing n x take).coil.openCoil.state = x ∧ (freeing n x take).coil.pendingTake = take)
      ∧ s.resetIn = false ∧ (out (sending 99 [] .forwarded)).portD.transmitter = some (sending 99 [] .forwarded)
      ∧ (out (sending 9 [0, 1] .forwarded)).portD.transmitter = some (sending 9 [0, 1] .forwarded)
      ∧ 2 ≤ cutreq.frame.payload.length
      ∧ (out (sending 6 [] .latch)).portD.transmitter = some (sending 6 [] .latch)
      ∧ (out cutreq).portD.transmitter = some cutreq ∧ cutreq.origin = .injected .plain ∧ cutreq.frame.kind = 9
      ∧ numberAt cutreq.frame.payload 1 2 = (withCoil .cutting s).coil.openCoil.number
      ∧ (withCoil .cutting s).coil.openCoil.state = .cutting ∧ s.coil.pendingTake = false
      ∧ s.coil.openCoil.state ≠ .cutWaitSend ∧ s.coil.openCoil.state ≠ .cutting ∧ s.store.hold = none
      ∧ (freeing 3 .cutWaitSend true).iqdHeld = 4 ∧ (freeing 2 .cutWaitSend true).iqdHeld < 4
      ∧ (out (sending 15 [] (.injected (.alarm 0)))).portU.transmitter = some (sending 15 [] (.injected (.alarm 0)))
      ∧ (∀ r ∈ waits.faults.list, r.identity = 0 ∨ r.notified = true ∨ r.queued = true) :=
  ⟨fun p => by cases p <;> rfl, fun _ _ _ => ⟨rfl, rfl, rfl, rfl⟩, by decide +kernel⟩

/-- Three IQU frames and the Port U transmitter's, a departing frame of this mark, with this request held. -/
def departing (m : InjMark) (q : Option Frame) : State :=
  { injecting 0 3 (site .run .rope) with portU.transmitter := some (sending 17 [0] (.injected m)), store.hold := q }

theorem witness_DepartureServesWaiting :
    let asking (pl : List Byte) : Frame := { bare 120 1 16 with payload := pl }
    let numbered (i : Nat) (notified : Bool) : FaultRecord :=
      { record .haulSilent (some i) .halt with identity := i, notified := notified }
    let t : State := withFaults [numbered 0 true, numbered 1 false, numbered 2 false] (departing .plain none)
    let alone : State := { departing .plain none with store.iqu := injected 0 }
    (∀ m q, (departing m q).resetIn = false ∧ (departing m q).store.reserved = false ∧ (departing m q).iquHeld = 4
        ∧ (departing m q).mode = .run ∧ (departing m q).store.hold = q ∧ (departing m q).faults.list = []
        ∧ (departing m q).portU.transmitter =
            some { frame := ⟨1, 120, 17, [0]⟩, origin := .injected m, parity := false, released := false })
      ∧ InjMark.plain ≠ .resetReply ∧ InjMark.newAddress 9 ≠ .resetReply ∧ InjMark.alarm 0 ≠ .resetReply
      ∧ (∀ pl, (asking pl).payload = pl) ∧ parseRequest [] = none
      ∧ parseRequest [17, 5] = some (.setAddress 5) ∧ Request.availableIn (.setAddress 5) .run = false
      ∧ parseRequest [3, 1] = some (.setMode 1) ∧ Request.availableIn (.setMode 1) .run = true
      ∧ t.store.hold = none ∧ t.iquHeld = 4 ∧ (t.faults.list.map FaultRecord.identity).Nodup
      ∧ t.faults.list = [numbered 0 true] ++ numbered 1 false :: [numbered 2 false]
      ∧ (∀ x ∈ [numbered 0 true], x.notified = true ∨ x.queued = true) ∧ (numbered 1 false).notified = false
      ∧ (numbered 1 false).queued = false ∧ alone.iquHeld = 1 :=
  ⟨fun _ _ => ⟨rfl, rfl, rfl, rfl, rfl, rfl, rfl⟩, by decide, nofun, nofun, fun _ => rfl, by decide +kernel⟩

/-! ## Witnesses of the invariants: a command that completes from a state that has them -/

/-- A command that completes at reset makes a step from the queue that holds it. -/
theorem reset_steps (c : Instr) (h : (after (fun _ => ()) c State.reset).isSome = true) :
    ∃ t, step { State.reset with pending := [c] } = .next t := by
  change ∃ t, exec c State.reset = .next t
  unfold after at h
  split at h
  · exact ⟨_, by assumption⟩
  · simp at h
  · simp at h

theorem witness_StoreStaysBounded : ∃ s t, s.StoreBounded ∧ step s = .next t :=
  have ⟨t, h⟩ := reset_steps (.transmitStart .d) (by decide +kernel)
  ⟨{ State.reset with pending := [.transmitStart .d] }, t,
    ⟨⟨rfl, rfl, nofun, nofun⟩, by decide, by decide, by decide, by decide, by decide, nofun⟩, h⟩

theorem witness_HoldOutKeepsFollowing : ∃ s t, s.HoldOutFollows ∧ step s = .next t :=
  have ⟨t, h⟩ := reset_steps (.transmitStart .d) (by decide +kernel)
  ⟨{ State.reset with pending := [.transmitStart .d] }, t, ⟨rfl, by decide, by decide⟩, h⟩

theorem witness_HaulStaysBalanced : ∃ s t, s.HaulBalanced ∧ step s = .next t :=
  have ⟨t, h⟩ := reset_steps (.haul [0, 100]) (by decide +kernel)
  ⟨{ State.reset with pending := [.haul [0, 100]] }, t, ⟨by decide, by decide, by decide⟩, h⟩

theorem witness_CoilsStayOrdered : ∃ s t, s.CoilsOrdered ∧ step s = .next t :=
  have ⟨t, h⟩ := reset_steps (.take []) (by decide +kernel)
  ⟨{ State.reset with pending := [.take []] }, t,
    ⟨by decide, rfl, nofun, nofun, List.Pairwise.nil, trivial, rfl, by decide, by decide, nofun⟩, h⟩

theorem witness_BreaksKeepTheLineHalted : ∃ s t, s.BreakHalts ∧ step s = .next t :=
  have ⟨t, h⟩ := reset_steps (.turns 0 []) (by decide +kernel)
  ⟨{ State.reset with pending := [.turns 0 []] }, t,
    ⟨by decide, by decide, fun _ _ => .inr rfl, by decide +kernel⟩, h⟩

theorem witness_ModeStaysAgreed : ∃ s t, s.ModeAgrees ∧ step s = .next t :=
  have ⟨t, h⟩ := reset_steps .timeBaseExpiry (by decide +kernel)
  ⟨{ State.reset with pending := [.timeBaseExpiry] }, t, ⟨nofun, nofun⟩, h⟩

theorem witness_FaultListStaysSound : ∃ s t, s.StoreBounded ∧ s.FaultsListed ∧ step s = .next t :=
  have ⟨t, h⟩ := reset_steps (.cutdone [0, 1, 0, 0]) (by decide +kernel)
  ⟨{ State.reset with pending := [.cutdone [0, 1, 0, 0]] }, t,
    ⟨⟨rfl, rfl, nofun, nofun⟩, by decide, by decide, by decide, by decide, by decide, nofun⟩,
    ⟨by decide, by decide, List.nodup_nil, List.nodup_nil, nofun, List.nodup_nil, nofun⟩, h⟩

theorem witness_MeshStaysSound : ∃ s t, s.MeshSound ∧ step s = .next t :=
  have ⟨t, h⟩ := reset_steps (.rowdone [0, 9, 0]) (by decide +kernel)
  ⟨{ State.reset with pending := [.rowdone [0, 9, 0]] }, t,
    reset_sound _ powerUp_inRange rfl, h⟩

end Sys2Proof.Tests
end

