-- ==== Sys2Proof/Proofs/ReverseHaul.lean ====
section
/-! SUPPORT. A negative HAUL (R22, R23): the equations of the HAUL command on its branches, and the two statements
about a negative increment. -/

namespace Sys2Proof.Machine

/-! ## The modes that produce -/

theorem Mode.produces_iff (m : Mode) : m.produces = true ↔ m = .run ∨ m = .creep := by
  cases m <;> simp [Mode.produces]

theorem Mode.produces_eq_false_iff (m : Mode) :
    m.produces = false ↔ m = .parked ∨ m = .threading ∨ m = .halted := by
  cases m <;> simp [Mode.produces]

/-! ## The HAUL command by its branches (R20) -/

/-- R20: a report long enough is counted as taken, heard by HAULWATCH, and its increment applied. -/
theorem exec_haul_of_long {pl : List Byte} {s : State} (hr : s.resetIn = false) (hl : 2 ≤ pl.length) :
    exec (.haul pl) s = .next
      (applyIncrement (signedOf 2 (numberAt pl 1 2))
        (haulHeard (signedOf 2 (numberAt pl 1 2)) { s with tally.haulTaken := bump s.tally.haulTaken })) := by
  change Host.Outcome.next (whenWorking s (haulReceived pl)) = _
  rw [whenWorking_of_released s _ hr]
  unfold haulReceived
  rw [if_neg (by omega)]

/-- R20 step 1: in RUN or CREEP a nonzero increment presets HAULWATCH. -/
theorem haulHeard_of_produces {i : Int} {s : State} (hi : i ≠ 0) (hm : s.mode.produces = true) :
    haulHeard i s = presetHaulwatch s :=
  if_pos ⟨hi, hm⟩

/-- R20 step 1: in the other modes HAULWATCH does not hear the report. -/
theorem haulHeard_of_not_produces {i : Int} {s : State} (hm : s.mode.produces = false) : haulHeard i s = s :=
  if_neg (by simp [hm])

/-- R22: a negative increment in RUN or CREEP raises HAUL_REVERSE. -/
theorem applyIncrement_neg_of_produces {i : Int} {s : State} (hi : i < 0) (hm : s.mode.produces = true) :
    applyIncrement i s = raise .haulReverse none 1 0 s := by
  unfold applyIncrement
  rw [if_neg (by omega), if_neg (by omega), if_pos hm]

/-- R23: a negative increment in the other modes takes length back. -/
theorem applyIncrement_neg_of_not_produces {i : Int} {s : State} (hi : i < 0) (hm : s.mode.produces = false) :
    applyIncrement i s = haulBack i.natAbs s := by
  unfold applyIncrement
  rw [if_neg (by omega), if_neg (by omega), if_neg (by simp [hm]), show (-i).toNat = i.natAbs by omega]

/-- R21, R23: counting a clipped report changes its count alone. -/
theorem countClipped_eq (clipped : Bool) (s : State) :
    countClipped clipped s =
      { s with tally.clippedHaul := if clipped then bump s.tally.clippedHaul else s.tally.clippedHaul } := by
  cases clipped <;> rfl

/-- R23: the whole state after a length taken back. -/
theorem haulBack_eq (m : Nat) (s : State) :
    haulBack m s = { s with
      coil.openCoil.length := s.coil.openCoil.length - min m s.coil.openCoil.length
      tally := { s.tally with
        haulTotal := s.tally.haulTotal - min m s.coil.openCoil.length
        clippedHaul := if min m s.coil.openCoil.length < m then bump s.tally.clippedHaul
          else s.tally.clippedHaul } } := by
  unfold haulBack
  simp only [countClipped_eq, decide_eq_true_eq]

/-! ## A negative HAUL as a whole (R22, R23) -/

/-- R22: HAULWATCH is preset before the refusal is handed to fault dispatch, stamped with the haul total. -/
theorem exec_haul_reverse_of_produces {pl : List Byte} {s : State} (hr : s.resetIn = false) (hl : 2 ≤ pl.length)
    (hi : signedOf 2 (numberAt pl 1 2) < 0) (hm : s.mode.produces = true) :
    exec (.haul pl) s = .next
      (handle { kind := .haulReverse, source := none, count := 1, extent := 0, stamp := s.tally.haulTotal }
        (presetHaulwatch { s with tally.haulTaken := bump s.tally.haulTaken })) := by
  rw [exec_haul_of_long hr hl, haulHeard_of_produces (by omega) (by exact hm),
    applyIncrement_neg_of_produces hi (by exact hm)]
  rfl

/-- R23: HAULWATCH does not hear the report, and the length is taken back. -/
theorem exec_haul_reverse_of_not_produces {pl : List Byte} {s : State} (hr : s.resetIn = false)
    (hl : 2 ≤ pl.length) (hi : signedOf 2 (numberAt pl 1 2) < 0) (hm : s.mode.produces = false) :
    exec (.haul pl) s = .next
      (haulBack (signedOf 2 (numberAt pl 1 2)).natAbs { s with tally.haulTaken := bump s.tally.haulTaken }) := by
  rw [exec_haul_of_long hr hl, haulHeard_of_not_produces (by exact hm),
    applyIncrement_neg_of_not_produces hi (by exact hm)]

/-- R13, R124: an occurrence of class HALT in RUN or CREEP leaves the mode HALTED. -/
theorem handle_mode_of_halt {o : Occurrence} {s : State} (hm : s.mode.produces = true)
    (hc : s.tables.faultClass o.kind = .halt) : (handle o s).mode = .halted := by
  have hp : s.mode ≠ .parked := by
    intro h
    simp [h, Mode.produces] at hm
  rw [handle_mode, hc]
  exact if_neg hp

/-- Settles O19: the command presets HAULWATCH and hands HAUL_REVERSE to fault dispatch, which keeps the lengths,
the other counters and HAULWATCH's value, and halts with class HALT. -/
theorem reverseHaulRefused : Obligations.ReverseHaulRefused := by
  intro pl s hr hl hi hmode heard t
  have hm : s.mode.produces = true := s.mode.produces_iff.2 hmode
  have hwatch : t.tally.haulwatch.current = s.tables.line.haulWatch := (handle_watch _ heard).1
  have hhalt (hc : s.tables.faultClass .haulReverse = .halt) : t.mode = .halted :=
    handle_mode_of_halt (s := heard) hm hc
  refine ⟨exec_haul_reverse_of_produces hr hl hi hm, ?_, ?_, ?_, ?_, ?_, ?_, ?_, hwatch, hhalt⟩
  all_goals simp [t, heard]

/-- Settles O20: the command counts the report as taken and takes back what the open coil has of the length. -/
theorem reverseHaulClamped : Obligations.ReverseHaulClamped := by
  intro pl s hr hl hi hmode m a
  rw [exec_haul_reverse_of_not_produces hr hl hi (s.mode.produces_eq_false_iff.2 hmode), haulBack_eq]

end Sys2Proof.Machine
end

/-! The coil records and the coil queue (5.2, 5.4, 5.6): the TAKE command on its branches (R102), what a defect makes
of a coil record (R87, R88), the cut request of a manual CUT (R93, R94), and the three statements about them. -/

namespace Sys2Proof.Machine

/-! ## An IQD entry (R159) -/

theorem State.iqdRoom_of_lt {s : State} (h : s.iqdHeld < 4) : s.iqdRoom = true :=
  decide_eq_true h

theorem State.iqdRoom_of_le {s : State} (h : 4 ≤ s.iqdHeld) : s.iqdRoom = false :=
  decide_eq_false (Nat.not_lt.2 h)

/-! ## TAKE on its branches (R102) -/

theorem exec_take (pl : List Byte) {s : State} (hr : s.resetIn = false) :
    exec (.take pl) s = .next (takeReceived s) := by
  change Host.Outcome.next (whenWorking s takeReceived) = _
  rw [whenWorking_of_released s _ hr]

theorem takeReceived_of_pending {s : State} (hp : s.coil.pendingTake = true) :
    takeReceived s = { s with coil.takeOverruns := bump s.coil.takeOverruns } :=
  if_pos hp

theorem takeReceived_of_full {s : State} (hp : s.coil.pendingTake = false) (hi : 4 ≤ s.iqdHeld) :
    takeReceived s = { s with coil.pendingTake := true } := by
  unfold takeReceived
  rw [if_neg (by simp [hp]), if_neg (by simp [State.iqdRoom_of_le hi])]

theorem takeReceived_of_room {s : State} (hp : s.coil.pendingTake = false) (hi : s.iqdHeld < 4) :
    takeReceived s = sendLabel s := by
  unfold takeReceived
  rw [if_neg (by simp [hp]), if_pos (State.iqdRoom_of_lt hi)]

/-- R102: with no CLOSED record the LABEL says no coil ready, and the coil queue stays. -/
theorem sendLabel_of_no_closed {s : State} (h : ∀ r ∈ s.coil.queue, r.state ≠ .closed) :
    sendLabel s = s.queueIqd (s.originate (s.tables.addressOf .packer 127) .label (labelPayload none)) := by
  obtain ⟨hold, hqueue⟩ := oldestClosed_none h
  unfold sendLabel
  rw [hold, hqueue]
  rfl

/-- R102: the LABEL describes the oldest CLOSED record, and that record becomes LABELLED. -/
theorem sendLabel_of_oldest {s : State} {before after : List CoilRecord} {r : CoilRecord}
    (hq : s.coil.queue = before ++ r :: after) (hb : ∀ x ∈ before, x.state ≠ .closed) (hr : r.state = .closed) :
    sendLabel s =
      { s.queueIqd (s.originate (s.tables.addressOf .packer 127) .label (labelPayload (some r))) with
        coil.queue := before ++ { r with state := .labelled } :: after } := by
  obtain ⟨hold, hqueue⟩ := oldestClosed_split (after := after) hb hr
  unfold sendLabel
  rw [hq, hold, hqueue]

/-- Settles O27, by the branches of the TAKE command and the LABEL it queues where IQD has room. -/
theorem takeAnswered : Obligations.TakeAnswered := by
  intro pl s hr dst
  rw [exec_take pl hr]
  refine ⟨fun hp => ?_, fun hp hi => ?_, fun hp hi hnone => ?_, fun before r after hp hi hq hb hc => ?_⟩
  · rw [takeReceived_of_pending hp]
  · rw [takeReceived_of_full hp hi]
  · rw [takeReceived_of_room hp hi, sendLabel_of_no_closed hnone]
    rfl
  · rw [takeReceived_of_room hp hi, sendLabel_of_oldest hq hb hc]
    rfl

/-! ## The newest entry of a kind and source (R87) -/

theorem updateFirst_split {p : Defect → Bool} (f : Defect → Defect) {before : List Defect} {e : Defect}
    (after : List Defect) (hb : ∀ y ∈ before, p y = false) (he : p e = true) :
    updateFirst p f (before ++ e :: after) = before ++ f e :: after := by
  induction before with
  | nil => exact if_pos he
  | cons a before ih =>
    have ha : p a = false := hb a (by simp)
    rw [List.cons_append, updateFirst, if_neg (by simp [ha]), ih fun y hy => hb y (by simp [hy]), List.cons_append]

/-- R87: the last entry that meets the condition is the one changed. -/
theorem updateNewest_split {p : Defect → Bool} (f : Defect → Defect) (before : List Defect) {e : Defect}
    {after : List Defect} (ha : ∀ y ∈ after, p y = false) (he : p e = true) :
    updateNewest p f (before ++ e :: after) = before ++ f e :: after := by
  have hrev : (before ++ e :: after).reverse = after.reverse ++ e :: before.reverse := by simp
  unfold updateNewest
  rw [hrev, updateFirst_split f _ (by simpa using ha) he]
  simp

/-- R87: the newest entry of a kind and source is of them, and no entry after it is. -/
theorem newestDefect_eq_some_iff {l : List Defect} {k : FaultKind} {src : Option Nat} {e : Defect} :
    newestDefect l k src = some e ↔ (e.kind = k ∧ e.source = src) ∧
      ∃ before after, l = before ++ e :: after ∧ ∀ y ∈ after, ¬(y.kind = k ∧ y.source = src) := by
  unfold newestDefect
  rw [List.find?_eq_some_iff_append]
  simp only [decide_eq_true_eq, Bool.not_eq_true', decide_eq_false_iff_not]
  refine and_congr_right fun _ => ⟨?_, ?_⟩
  · rintro ⟨as, bs, hl, has⟩
    refine ⟨bs.reverse, as.reverse, ?_, fun y hy => has y (List.mem_reverse.1 hy)⟩
    rw [← List.reverse_reverse l, hl]
    simp
  · rintro ⟨before, after, rfl, ha⟩
    exact ⟨after.reverse, before.reverse, by simp, fun y hy => ha y (List.mem_reverse.1 hy)⟩

theorem mergesInto_some (e : Defect) (o : Nat) : mergesInto (some e) o = true ↔ o ≤ e.offset + e.extent + 100 :=
  decide_eq_true_iff

/-- R87: nothing is merged where every newest entry of the kind and source ends more than 100 cm before. -/
theorem mergesInto_newest_of_apart {l : List Defect} {k : FaultKind} {src : Option Nat} {o : Nat}
    (h : ∀ before e after, l = before ++ e :: after → e.kind = k → e.source = src →
      (∀ y ∈ after, ¬(y.kind = k ∧ y.source = src)) → e.offset + e.extent + 100 < o) :
    ¬mergesInto (newestDefect l k src) o = true := by
  cases hn : newestDefect l k src with
  | none => exact Bool.false_ne_true
  | some e =>
    obtain ⟨⟨hk, hsrc⟩, before, after, hl, ha⟩ := newestDefect_eq_some_iff.1 hn
    rw [mergesInto_some]
    exact Nat.not_le.2 (h before e after hl hk hsrc ha)

/-! ## A defect added, on its branches (R87) -/

theorem CoilRecord.addDefect_of_merges {c : CoilRecord} {k : FaultKind} {src : Option Nat} {o : Nat} (x pts : Nat)
    (h : mergesInto (newestDefect c.defects k src) o = true) :
    c.addDefect k src o x pts = { c with
      points := satAdd 4294967295 c.points pts
      defects := updateNewest (fun e => e.kind = k ∧ e.source = src) (fun e => e.merge o x pts) c.defects } :=
  if_pos h

theorem CoilRecord.addDefect_of_room {c : CoilRecord} {k : FaultKind} {src : Option Nat} {o : Nat} (x pts : Nat)
    (h : ¬mergesInto (newestDefect c.defects k src) o = true) (hl : c.defects.length < 24) :
    c.addDefect k src o x pts = { c with
      points := satAdd 4294967295 c.points pts
      defects := c.defects ++
        [{ kind := k, offset := o, source := src, extent := x, repeats := 1, points := pts }] } := by
  unfold CoilRecord.addDefect
  dsimp only
  rw [if_neg h, if_pos hl]

theorem CoilRecord.addDefect_of_full {c : CoilRecord} {k : FaultKind} {src : Option Nat} {o : Nat} (x pts : Nat)
    (h : ¬mergesInto (newestDefect c.defects k src) o = true) (hl : 24 ≤ c.defects.length) :
    c.addDefect k src o x pts = { c with
      points := satAdd 4294967295 c.points pts
      overflow := bump c.overflow
      overflowPoints := satAdd 4294967295 c.overflowPoints pts } := by
  unfold CoilRecord.addDefect
  dsimp only
  rw [if_neg h, if_neg (Nat.not_lt.2 hl)]

/-- Settles O29: the merge is made in the place of the newest entry, which the split of the list names; where that
entry ends too far back the defect is appended or overflows. -/
theorem defectAdded : Obligations.DefectAdded := by
  refine ⟨fun n => ⟨rfl, rfl, rfl, rfl, rfl, rfl, rfl⟩, ?_⟩
  intro c k src o x pts t apart
  refine ⟨addDefect_points c k src o x pts, ?_, ?_, ?_⟩
  · intro before e after hl hk hsrc ha ho
    have hnew : newestDefect c.defects k src = some e :=
      newestDefect_eq_some_iff.2 ⟨⟨hk, hsrc⟩, before, after, hl, ha⟩
    have hmerge : mergesInto (newestDefect c.defects k src) o = true := by rwa [hnew, mergesInto_some]
    simp only [t, CoilRecord.addDefect_of_merges x pts hmerge, hl, and_true]
    exact updateNewest_split _ before (by simpa using ha) (by simp [hk, hsrc])
  · intro hapart hlt
    simp only [t, CoilRecord.addDefect_of_room x pts (mergesInto_newest_of_apart hapart) hlt, and_self]
  · intro hapart hle
    simp only [t, CoilRecord.addDefect_of_full x pts (mergesInto_newest_of_apart hapart) hle, bump, satAdd, and_self]

/-! ## The cut request on its branches (R94) -/

theorem cutRequest_of_sendable {s : State} (hq : s.coil.queue.length < 16) (hi : s.iqdHeld < 4) :
    cutRequest s = sendCutreq s := by
  unfold cutRequest cutWithRoom
  rw [if_neg (Nat.not_le.2 hq), if_pos (State.iqdRoom_of_lt hi)]

theorem cutRequest_of_no_entry {s : State} (hq : s.coil.queue.length < 16) (hi : 4 ≤ s.iqdHeld) :
    cutRequest s = setOpenState .cutWaitSend s := by
  unfold cutRequest cutWithRoom
  rw [if_neg (Nat.not_le.2 hq), if_neg (by simp [State.iqdRoom_of_le hi])]

theorem cutRequest_of_full {s : State} (hq : 16 ≤ s.coil.queue.length) :
    cutRequest s = raise .queueFull (some s.coil.openCoil.number) 1 0 (setOpenState .cutWaitRoom s) :=
  if_pos hq

/-- R93: the state of an accepted manual CUT before its cut request: COIL stopped, the cut lag 0. -/
def cutPrepared (s : State) : State := { s with tally.coil.running := false, coil.openCoil.cutLag := 0 }

theorem manualCut_eq (s : State) : manualCut s = cutRequest (cutPrepared s) := rfl

theorem State.mayCut_iff (s : State) :
    s.mayCut = true ↔ s.coil.openCoil.state = .opened ∧ 0 < s.coil.openCoil.length := by
  simp [State.mayCut]

theorem cutManually_of_mayCut {s : State} (h : s.mayCut = true) : cutManually s = (manualCut s, Reply.ok []) :=
  if_pos h

theorem cutManually_of_not_mayCut {s : State} (h : ¬s.mayCut = true) : cutManually s = (s, Reply.bare statusBusy) :=
  if_neg h

/-! ## The CUT command (R93, R192) -/

/-- R93: a CUT that is not accepted is answered BUSY and changes nothing. -/
theorem exec_cut_of_not_mayCut (src : Addr) {s : State} (h : s.TakesRequests) (hc : ¬s.mayCut = true) :
    exec (.cut src) s = .next (s.answered src [5]) :=
  requestMade_kept src .cut s 5 [] h rfl rfl (cutManually_of_not_mayCut (by exact hc))

/-- The state in which a request taken at once is carried out: its MREQ counted on Port U (log 4), its slot and the
entry of its reply granted (R163). -/
def State.granted (s : State) : State :=
  { s.frameConsumed .u with store.arriving := true, store.reserved := true }

/-- R93: an accepted CUT is carried out and its OK queued. -/
theorem exec_cut_of_mayCut (src : Addr) {s : State} (h : s.TakesRequests) (hc : s.mayCut = true) :
    exec (.cut src) s =
      .next (endArrival (queueReply src (Reply.ok []) (cutRequest (cutPrepared s.granted)))) := by
  change requestMade src .cut s = _
  rw [requestMade_taken src .cut s h rfl rfl]
  change Host.Outcome.next (endArrival (queueReply src (cutManually s.granted).2 (cutManually s.granted).1)) = _
  rw [cutManually_of_mayCut (by exact hc), manualCut_eq]

/-- R93, R192: where the cut request makes of the state a request is carried out in that of `t`, an accepted CUT ends
in `t` with its MREQ counted and its OK queued. -/
theorem exec_cut_answered (src : Addr) {s t : State} (h : s.TakesRequests) (hc : s.mayCut = true)
    (ht : cutRequest (cutPrepared s.granted) = t.granted) (ha : t.store.arriving = false)
    (hr : t.store.reserved = false) (hf : t.HoldOutFollows) :
    exec (.cut src) s = .next (t.answered src [0]) := by
  rw [exec_cut_of_mayCut src h hc, ht]
  exact congrArg _ (endArrival_answered (t.frameConsumed .u) src (Reply.ok []) ha hr
    (setHoldOut_of_follows _ hf))

/-- R94: on a full coil queue CUT leaves what QUEUE_FULL makes of the fault list, the mode, the latch and IQU, with
its OK behind the ALARMs. -/
theorem exec_cut_of_full (src : Addr) {s : State} (h : s.TakesRequests) (hc : s.mayCut = true)
    (hq : 16 ≤ s.coil.queue.length) :
    exec (.cut src) s = .next (endArrival (queueReply src (Reply.ok [])
      (raise .queueFull (some s.coil.openCoil.number) 1 0 (setOpenState .cutWaitRoom (cutPrepared s.granted))))) := by
  rw [exec_cut_of_mayCut src h hc, cutRequest_of_full (by exact hq)]
  rfl

/-- R192, R205: the OK of a request is the last frame of IQU. -/
theorem queueReply_ok_iqu (dst : Addr) (s : State) :
    (queueReply dst (Reply.ok []) s).store.iqu = s.store.iqu ++
      [{ frame := { dst := dst, src := s.ownAddress, kind := 17, payload := [0] }, mark := .plain }] := rfl

theorem raise_counters (k : FaultKind) (src : Option Nat) (count extent : Nat) (s : State) :
    (raise k src count extent s).faults.counters = s.faults.counters.modify (k.number - 1) bump :=
  handle_counters (occurrence s k src count extent) s

/-- Settles O45, by the branches of the cut request; on a full coil queue QUEUE_FULL is raised alike in the state
the request is carried out in and in the state without its MREQ's counts. -/
theorem cutByHand : Obligations.CutByHand := by
  intro src s h stopped
  have ⟨⟨⟨_, harriving, hreserved, _⟩, _, hfollows⟩, _⟩ := h
  refine ⟨fun hbusy => ?_, fun ho hl hq hi => ?_, fun ho hl hq hi => ?_, fun ho hl hq => ?_⟩
  · refine exec_cut_of_not_mayCut src h ?_
    rw [s.mayCut_iff]
    rintro ⟨hopen, hlen⟩
    exact hbusy.elim (fun hne => hne hopen) (fun h0 => Nat.ne_of_gt hlen h0)
  · refine exec_cut_answered src h (s.mayCut_iff.2 ⟨ho, hl⟩) ?_ harriving hreserved hfollows
    exact cutRequest_of_sendable hq hi
  · refine exec_cut_answered src h (s.mayCut_iff.2 ⟨ho, hl⟩) ?_ harriving hreserved hfollows
    exact cutRequest_of_no_entry hq hi
  · refine ⟨_, exec_cut_of_full src h (s.mayCut_iff.2 ⟨ho, hl⟩) hq, ?_⟩
    obtain ⟨hmode, hfaults, hlatch, hiqu⟩ := raise_congr .queueFull (some s.coil.openCoil.number) 1 0
      (x := setOpenState .cutWaitRoom (cutPrepared s.granted))
      (y := { stopped with store.reserved := true }) rfl rfl rfl rfl rfl rfl rfl rfl rfl
    refine ⟨?_, ?_, ?_, ?_, ?_, ?_, ?_, ?_, ?_, ?_⟩
    · simp [setOpenState]
    · simp [cutPrepared]
    · simp [cutPrepared, State.granted]
    · simp [queueReply_ok_iqu, cutPrepared, State.granted]
    · simp only [endArrival_keeps, queueReply_keeps, raise_counters]
      rfl
    · simpa using hmode
    · simpa using hfaults
    · simpa using hlatch
    · simp [cutPrepared, State.granted]
    · simp only [endArrival_keeps, queueReply_ok_iqu, raise_keeps, hiqu]
      rfl

end Sys2Proof.Machine

/-! The line ports (8.2 to 8.7): a received character on its branches in HUNT, SKIP and FILL (R143 to R147), and the two
statements about received characters. -/

namespace Sys2Proof.Machine

/-! ## A port's receiver and counters (R142, R153) -/

/-- R153: two changes of a port's counters are one. -/
theorem State.countPort_countPort (s : State) (p : Port) (f g : PortCounters → PortCounters) :
    (s.countPort p f).countPort p g = s.countPort p (fun k => g (f k)) := by
  cases p <;> rfl

theorem State.setReceiver_of_eq {s : State} {p : Port} {r : Receiver} (h : (s.port p).receiver = r) :
    s.setReceiver p r = s := by
  subst h
  cases p <;> rfl

/-- R157: a receiver put in another state gives back the slot it held and takes the new state's. -/
theorem State.heldForwarding_setReceiver (s : State) (p : Port) (r : Receiver) :
    (s.setReceiver p r).heldForwarding + (s.port p).receiver.slots = s.heldForwarding + r.slots := by
  cases p <;> simp only [State.heldForwarding, State.setReceiver, State.setPort, State.port] <;> omega

/-- R146, R157: the slot a receiver in FILL gives back is free. -/
theorem State.freeForwarding_pos_of_fill {s : State} {p : Port} {l : List Byte} (h : s.heldForwarding ≤ 24)
    (hl : (s.port p).receiver = .fill l) : 0 < (s.setReceiver p .hunt).freeForwarding := by
  have held := s.heldForwarding_setReceiver p .hunt
  simp only [hl, Receiver.slots] at held
  rw [State.freeForwarding_eq]
  omega

/-! ## Character errors (R139) -/

/-- R139: an error is a missing stop element or, with parity on, an odd number of ones. -/
theorem isCharError_iff (on : Bool) (c : LineChar) :
    isCharError on c = true ↔
      c.stop = false ∨ (on = true ∧ (onesOf c.value + c.mark.toNat + c.parity.toNat) % 2 = 1) := by
  have hparity : (c.parity != evenParity c.value c.mark) = true ↔
      (onesOf c.value + c.mark.toNat + c.parity.toNat) % 2 = 1 := by
    unfold evenParity
    cases c.parity
    · simp
    · simp only [bne_iff_ne, ne_eq, Bool.toNat_true, Bool.true_eq, beq_iff_eq]
      omega
  rw [← hparity]
  simp [isCharError]

/-! ## CHARACTER_RECEIVED by its branches (R142) -/

theorem exec_characterReceived (p : Port) (c : LineChar) {s : State} (hr : s.resetIn = false) :
    exec (.characterReceived p c) s = .next (characterReceived p c s) := by
  change Host.Outcome.next (whenWorking s (characterReceived p c)) = _
  rw [whenWorking_of_released s _ hr]

theorem characterReceived_of_error {p : Port} {c : LineChar} {s : State}
    (h : isCharError (s.parityOn p) c = true) : characterReceived p c s = errorReceived p s :=
  if_pos h

theorem characterReceived_of_good {p : Port} {c : LineChar} {s : State}
    (h : ¬isCharError (s.parityOn p) c = true) : characterReceived p c s = goodReceived p c s :=
  if_neg h

/-! ## HUNT and SKIP (R143, R144, R147) -/

section Seeking

variable {p : Port} {s : State} (h : (s.port p).receiver = .hunt ∨ (s.port p).receiver = .skip)
include h

/-- R143, R147: an error in HUNT or SKIP is counted and leaves SKIP. -/
theorem errorReceived_of_seeking : errorReceived p s = (countCharError p s).setReceiver p .skip := by
  have hkept : ((countCharError p s).port p).receiver = (s.port p).receiver := by simp [countCharError]
  unfold errorReceived
  rcases h with hunt | skip
  · simp only [hkept, hunt]
  · simp only [hkept, skip]
    exact (State.setReceiver_of_eq (hkept.trans skip)).symm

theorem goodReceived_of_seeking (c : LineChar) :
    goodReceived p c s = if c.mark then headerReceived p c.value s else s := by
  unfold goodReceived
  rcases h with hunt | skip
  · simp only [hunt]
  · simp only [skip]

end Seeking

theorem headerReceived_of_above {v : Byte} (p : Port) (s : State) (hv : 127 < v.toNat) :
    headerReceived p v s = (countFormatDrop p s).setReceiver p .skip :=
  if_pos hv

/-- R144: with no slot free the frame is a pool drop. -/
theorem headerReceived_of_full {v : Byte} (p : Port) {s : State} (hv : v.toNat ≤ 127) (hf : s.freeForwarding = 0) :
    headerReceived p v s =
      (s.countPort p (fun k => { k with poolDrops := bump k.poolDrops })).setReceiver p .skip := by
  unfold headerReceived
  rw [if_neg (Nat.not_lt.2 hv), if_pos hf]

/-- R143, R144: with a slot free the destination is stored. -/
theorem headerReceived_of_free {v : Byte} (p : Port) {s : State} (hv : v.toNat ≤ 127) (hf : 0 < s.freeForwarding) :
    headerReceived p v s = (s.setReceiver p (.fill [v])).setHoldOut := by
  unfold headerReceived
  rw [if_neg (Nat.not_lt.2 hv), if_neg (Nat.ne_of_gt hf)]

/-- Settles O6, by the branches of a received character in a receiver that seeks a header. -/
theorem huntAndSkipCharacters : Obligations.HuntAndSkipCharacters := by
  intro p c s hr hseek bad
  have hbad : isCharError (s.parityOn p) c = true ↔ bad := isCharError_iff _ c
  have good (hb : ¬bad) : exec (.characterReceived p c) s =
      .next (if c.mark then headerReceived p c.value s else s) := by
    rw [exec_characterReceived p c hr, characterReceived_of_good (mt hbad.1 hb), goodReceived_of_seeking hseek]
  refine ⟨fun hb => ?_, fun hb hm => ?_, fun hb hm hv => ?_, fun hb hm hv hf => ?_, fun hb hm hv hf => ?_⟩
  · rw [exec_characterReceived p c hr, characterReceived_of_error (hbad.2 hb), errorReceived_of_seeking hseek]
    rfl
  · rw [good hb, if_neg (by simp [hm])]
  · rw [good hb, if_pos hm, headerReceived_of_above p s hv]
    rfl
  · rw [good hb, if_pos hm, headerReceived_of_full p hv hf]
  · rw [good hb, if_pos hm, headerReceived_of_free p hv hf]

/-! ## FILL (R145, R146) -/

/-- R145 case 1: an error drops the frame. -/
theorem errorReceived_of_fill {p : Port} {s : State} {l : List Byte} (h : (s.port p).receiver = .fill l) :
    errorReceived p s = abandonFrame p (s.countPort p (fun k =>
      { k with charErrors := bump k.charErrors, charErrorDrops := bump k.charErrorDrops })) := by
  have hkept : ((countCharError p s).port p).receiver = .fill l := by simpa [countCharError] using h
  unfold errorReceived
  simp only [hkept]
  unfold countCharError
  rw [State.countPort_countPort]

theorem goodReceived_of_fill {p : Port} {s : State} {l : List Byte} (h : (s.port p).receiver = .fill l)
    (c : LineChar) : goodReceived p c s = fillReceived p l c s := by
  unfold goodReceived
  simp only [h]

/-- R145 case 2: a marked character begins a new frame in the slot of the truncated one. -/
theorem truncateFrame_of_le {v : Byte} (p : Port) (s : State) (hv : v.toNat ≤ 127) :
    truncateFrame p v s =
      (s.countPort p (fun k => { k with truncatedDrops := bump k.truncatedDrops })).setReceiver p (.fill [v]) :=
  if_neg (Nat.not_lt.2 hv)

/-- R145 case 2: a marked character above 127 is a format drop besides. -/
theorem truncateFrame_of_above {v : Byte} (p : Port) (s : State) (hv : 127 < v.toNat) :
    truncateFrame p v s = abandonFrame p (s.countPort p (fun k =>
      { k with truncatedDrops := bump k.truncatedDrops, formatDrops := bump k.formatDrops })) := by
  unfold truncateFrame countFormatDrop
  dsimp only
  rw [if_pos hv, State.countPort_countPort]

theorem formatFault_iff (l : List Byte) (v : Byte) :
    formatFault l v = true ↔ (l.length = 1 ∧ 127 < v.toNat) ∨ (l.length = 3 ∧ 32 < v.toNat) := by
  simp [formatFault]

theorem fillReceived_of_mark {c : LineChar} (p : Port) (l : List Byte) (s : State) (hm : c.mark = true) :
    fillReceived p l c s = truncateFrame p c.value s :=
  if_pos hm

theorem fillReceived_of_fault {l : List Byte} {c : LineChar} (p : Port) (s : State) (hm : c.mark = false)
    (hf : formatFault l c.value = true) : fillReceived p l c s = abandonFrame p (countFormatDrop p s) := by
  unfold fillReceived
  rw [if_neg (by simp [hm]), if_pos hf]

theorem fillReceived_of_no_fault {l : List Byte} {c : LineChar} (p : Port) (s : State) (hm : c.mark = false)
    (hf : ¬formatFault l c.value = true) : fillReceived p l c s = storeCharacter p (l ++ [c.value]) s := by
  unfold fillReceived
  rw [if_neg (by simp [hm]), if_neg hf]

/-- R145: the expected total is reached once the length character is stored and 6 + length characters stand. -/
theorem expectedTotal_eq_length_iff (l : List Byte) :
    expectedTotal l = some l.length ↔ 4 ≤ l.length ∧ l.length = 6 + (l.getD 3 0).toNat := by
  unfold expectedTotal
  by_cases h : 4 ≤ l.length
  · have hthird : l[3]? = some (l.getD 3 0) := by simp [List.getElem?_eq_getElem (Nat.lt_of_succ_le h)]
    rw [hthird, Option.map_some, Option.some_inj, eq_comm, and_iff_right h]
  · have hnone : l[3]? = none := List.getElem?_eq_none (Nat.le_of_lt_succ (Nat.not_le.1 h))
    simp [hnone, h]

theorem storeCharacter_of_incomplete {l : List Byte} (p : Port) (s : State) (h : ¬expectedTotal l = some l.length) :
    storeCharacter p l s = s.setReceiver p (.fill l) :=
  if_neg h

theorem storeCharacter_of_complete {l : List Byte} (p : Port) (s : State) (h : expectedTotal l = some l.length) :
    storeCharacter p l s = frameComplete p l s :=
  if_pos h

theorem checkMatches_iff (l : List Byte) : checkMatches l = true ↔
    numberOf (l.drop (l.length - 2)) = (frameCheck (l.take (l.length - 2))).toNat :=
  decide_eq_true_iff

/-- R146: a wrong check drops the frame. -/
theorem frameComplete_of_mismatch {l : List Byte} (p : Port) (s : State) (h : ¬checkMatches l = true) :
    frameComplete p l s =
      ((s.countPort p (fun k => { k with checkDrops := bump k.checkDrops })).setReceiver p .hunt).setHoldOut := by
  unfold frameComplete
  rw [if_neg h]
  cases p <;> rfl

/-- R146: a matching check makes the frame arrive in the slot its receiver held. -/
theorem frameComplete_of_match {l : List Byte} (p : Port) (s : State) (h : checkMatches l = true) :
    frameComplete p l s = endArrival (arrive p (frameOf l) { s.setReceiver p .hunt with store.arriving := true }) :=
  if_pos h

/-- R144: a frame that comes while a slot is free arrives in it (log 3). -/
theorem exec_arrival_of_free (p : Port) (f : Frame) {s : State} (hr : s.resetIn = false)
    (hf : 0 < s.freeForwarding) :
    exec (.arrival p f) s = .next (endArrival (arrive p f { s with store.arriving := true })) := by
  change Host.Outcome.next (whenWorking s (withSlot p (arrive p f))) = _
  rw [whenWorking_of_released s _ hr]
  unfold withSlot
  rw [if_neg (Nat.ne_of_gt hf)]

/-- Settles O7, by the branches of a received character in FILL; the slot a complete frame gives back is the one that
the ARRIVAL command of the frame is granted. -/
theorem fillCharacters : Obligations.FillCharacters := by
  intro p c s l hr hbounded hl bad fault now complete good
  have hbad : isCharError (s.parityOn p) c = true ↔ bad := isCharError_iff _ c
  have hfault : formatFault l c.value = true ↔ fault := formatFault_iff l c.value
  have hcomplete : expectedTotal now = some now.length ↔ complete := expectedTotal_eq_length_iff now
  have hgood : checkMatches now = true ↔ good := checkMatches_iff now
  have filled (hb : ¬bad) : exec (.characterReceived p c) s = .next (fillReceived p l c s) := by
    rw [exec_characterReceived p c hr, characterReceived_of_good (mt hbad.1 hb), goodReceived_of_fill hl]
  have stored (hb : ¬bad) (hm : c.mark = false) (hf : ¬fault) :
      exec (.characterReceived p c) s = .next (storeCharacter p now s) := by
    rw [filled hb, fillReceived_of_no_fault p s hm (mt hfault.1 hf)]
  refine ⟨fun hb => ?_, fun hb hm hv => ?_, fun hb hm hv => ?_, fun hb hm hf => ?_, fun hb hm hf hc => ?_,
    fun hb hm hf hc hg => ?_, fun hb hm hf hc hg => ?_⟩
  · rw [exec_characterReceived p c hr, characterReceived_of_error (hbad.2 hb), errorReceived_of_fill hl]
    rfl
  · rw [filled hb, fillReceived_of_mark p l s hm, truncateFrame_of_le p s hv]
  · rw [filled hb, fillReceived_of_mark p l s hm, truncateFrame_of_above p s hv]
    rfl
  · rw [filled hb, fillReceived_of_fault p s hm (hfault.2 hf)]
    rfl
  · rw [stored hb hm hf, storeCharacter_of_incomplete p s (mt hcomplete.1 hc)]
  · rw [stored hb hm hf, storeCharacter_of_complete p s (hcomplete.2 hc),
      frameComplete_of_mismatch p s (mt hgood.1 hg)]
  · have ⟨_, _, _, _, _, hheld, _⟩ := hbounded
    rw [stored hb hm hf, storeCharacter_of_complete p s (hcomplete.2 hc), frameComplete_of_match p s (hgood.2 hg),
      exec_arrival_of_free p _ (by simpa using hr) (State.freeForwarding_pos_of_fill hheld hl)]

end Sys2Proof.Machine

/-! Management (9.6, 11, 12.3): an MREQ on its branches (R170, R171, R193), the port counters' requests (R154), and the
two statements about them. -/

namespace Sys2Proof.Machine

/-! ## A payload performed (R193) -/

theorem perform_of_none {pl : List Byte} (s : State) (h : parseRequest pl = none) :
    perform pl s = (s, Reply.bare statusBadRequest) := by
  unfold perform
  rw [h]

theorem perform_of_unavailable {pl : List Byte} {r : Request} {s : State} (h : parseRequest pl = some r)
    (ha : r.availableIn s.mode = false) : perform pl s = (s, Reply.bare statusNotInMode) := by
  unfold perform
  rw [h]
  exact if_neg (by simp [ha])

theorem perform_of_available {pl : List Byte} {r : Request} {s : State} (h : parseRequest pl = some r)
    (ha : r.availableIn s.mode = true) : perform pl s = carryOut r s := by
  unfold perform
  rw [h]
  exact if_pos ha

/-! ## MREQ by its branches (R170, R171) -/

/-- R192: a reply is the last frame of IQU. -/
theorem queueReply_iqu (dst : Addr) (r : Reply) (s : State) :
    (queueReply dst r s).store.iqu = s.store.iqu ++
      [{ frame := { dst := dst, src := s.ownAddress, kind := 17, payload := r.status :: r.data }, mark := r.mark }] :=
  rfl

/-- R124: an occurrence raised of no defect kind changes no coil. -/
theorem raise_coil {k : FaultKind} (hk : k.isDefect = false) (src : Option Nat) (count extent : Nat) (s : State) :
    (raise k src count extent s).coil = s.coil :=
  handle_coil (occurrence s k src count extent) s hk

theorem State.iquHeld_frameConsumed (s : State) (p : Port) : (s.frameConsumed p).iquHeld = s.iquHeld := by
  cases p <;> rfl

/-- R158: where no arrival is in progress its end sets HOLD-OUT anew and no more. -/
theorem endArrival_of_no_arrival {s : State} (h : s.store.arriving = false) : endArrival s = s.setHoldOut := by
  have hkept : { s with store.arriving := false } = s := by rw [← h]
  unfold endArrival
  rw [hkept]

/-- R144, R203: with the RESET input released and a slot free an MREQ is counted and handed to management in it. -/
theorem exec_mreq_of_takesFrames (p : Port) (src : Addr) (pl : List Byte) {s : State} (h : s.TakesFrames) :
    exec (.mreq p src pl) s =
      .next (endArrival (handMreq (mreqFrame s src pl) { s.frameConsumed p with store.arriving := true })) := by
  have ⟨⟨hr, _⟩, hfree, _⟩ := h
  change Host.Outcome.next (whenWorking s (mreqReceived p src pl)) = _
  rw [whenWorking_of_released s _ hr]
  unfold mreqReceived withSlot
  rw [if_neg (Nat.ne_of_gt hfree)]
  cases p <;> rfl

/-- R170: with a request held an MREQ is dropped. -/
theorem exec_mreq_of_held (p : Port) (src : Addr) (pl : List Byte) {s : State} (h : s.TakesFrames)
    (hh : s.store.hold.isSome = true) :
    exec (.mreq p src pl) s = .next (endArrival
      (raise .mgmtOverrun (some src.toNat) 1 0 { s.frameConsumed p with store.arriving := true })) := by
  rw [exec_mreq_of_takesFrames p src pl h]
  unfold handMreq
  rw [if_pos (by simpa using hh)]
  rfl

/-- R171: with IQU full an MREQ is held in its slot. -/
theorem exec_mreq_of_full (p : Port) (src : Addr) (pl : List Byte) {s : State} (h : s.TakesFrames)
    (hh : s.store.hold = none) (hi : 4 ≤ s.iquHeld) :
    exec (.mreq p src pl) s =
      .next { s.frameConsumed p with store.hold := some (mreqFrame s src pl) }.setHoldOut := by
  have ⟨⟨_, harriving, _⟩, _⟩ := frameConsumed_takes p s h
  have hroom : ¬(s.frameConsumed p).iquRoom = true := by
    simp [State.iquRoom, State.iquHeld_frameConsumed, hi]
  rw [exec_mreq_of_takesFrames p src pl h]
  unfold handMreq
  rw [if_neg (by simp [hh]), if_neg (by exact hroom), ← endArrival_of_no_arrival (by exact harriving)]
  rfl

/-- R163, R170: with no request held and room in IQU an MREQ is performed, its reply's entry reserved. -/
theorem exec_mreq_taken (p : Port) (src : Addr) (pl : List Byte) {s : State} (h : s.TakesFrames)
    (hh : s.store.hold = none) (hi : s.iquHeld < 4) :
    exec (.mreq p src pl) s = .next (endArrival (queueReply src
      (perform pl { s.frameConsumed p with store.arriving := true, store.reserved := true }).2
      (perform pl { s.frameConsumed p with store.arriving := true, store.reserved := true }).1)) := by
  have ⟨⟨hr, _⟩, _⟩ := h
  change Host.Outcome.next (whenWorking s (mreqReceived p src pl)) = _
  rw [whenWorking_of_released s _ hr, mreqReceived_taken p src pl s h hh hi]

/-- R192, R193: an MREQ whose performing changes nothing ends in its counts and its reply. -/
theorem exec_mreq_refused (p : Port) (src : Addr) {pl : List Byte} {s : State} (status : Byte) (h : s.TakesFrames)
    (hh : s.store.hold = none) (hi : s.iquHeld < 4)
    (hperform : perform pl { s.frameConsumed p with store.arriving := true, store.reserved := true } =
      ({ s.frameConsumed p with store.arriving := true, store.reserved := true }, Reply.bare status)) :
    exec (.mreq p src pl) s = .next ((s.frameConsumed p).queueIqu (s.originate src .mrep [status]) .plain) := by
  have ⟨⟨_, harriving, hreserved, _⟩, _, hfollows⟩ := frameConsumed_takes p s h
  rw [exec_mreq_taken p src pl h hh hi, hperform]
  have hended := endArrival_answered (s.frameConsumed p) src (Reply.bare status) harriving hreserved
    (setHoldOut_of_follows _ hfollows)
  rw [hended]
  cases p <;> rfl

/-- Settles O32: each request is its MREQ, and an MREQ goes by the branches of its handing over; what becomes of the
rest of the state is what MGMT_OVERRUN or the request carried out leaves of it. -/
theorem mreqHandled : Obligations.MreqHandled := by
  refine ⟨fun _ _ _ => rfl, fun r m => ?_, fun src s => ?_, fun p src pl s h => ?_⟩
  · cases r <;> simp [Request.availableIn]
  · exact ⟨fun _ _ _ => rfl, fun _ _ _ => rfl, fun _ => rfl, fun _ => ⟨rfl, rfl⟩, rfl, rfl, fun _ _ => rfl, rfl,
      fun _ _ => rfl, fun _ _ => rfl, fun _ => rfl, fun _ => ⟨rfl, rfl⟩, fun _ => rfl, rfl, fun _ => rfl, rfl⟩
  intro f counted answered
  have hcounted : counted = s.frameConsumed p := rfl
  refine ⟨fun hh => ?_, fun hh hi => ?_, fun hh hi hp => ?_, fun r hh hi hp ha => ?_, fun r hh hi hp ha => ?_⟩
  · refine ⟨_, exec_mreq_of_held p src pl h hh, rfl, ?_, ?_, ?_, ?_, ?_, ?_, ?_, ?_⟩
    · simp only [endArrival_keeps, raise_counters, State.frameConsumed_keeps]
      rfl
    · simp
    · simp
    · have hnone : FaultKind.mgmtOverrun.isDefect = false := rfl
      simp [raise_coil hnone]
    all_goals simp [hcounted]
  · exact exec_mreq_of_full p src pl h hh (Nat.le_of_eq hi.symm)
  · exact exec_mreq_refused p src statusBadRequest h hh hi (perform_of_none _ hp)
  · exact exec_mreq_refused p src statusNotInMode h hh hi (perform_of_unavailable hp (by simpa using ha))
  · intro done
    have hdone : perform pl { s.frameConsumed p with store.arriving := true, store.reserved := true } = done :=
      perform_of_available hp (by simpa using ha)
    have haddress : done.1.ownAddress = s.ownAddress := by simp [done, hcounted]
    refine ⟨_, exec_mreq_taken p src pl h hh hi, ?_⟩
    rw [hdone]
    simp [queueReply_iqu, haddress]

/-! ## READ_COUNTERS and CLEAR_COUNTERS (R154) -/

theorem portOfCode_of_above {n : Nat} (h : 1 < n) : portOfCode n = none := by
  match n with
  | 0 | 1 => omega
  | n + 2 => rfl

theorem portOfCode_portCode (p : Port) : portOfCode (portCode p) = some p := by
  cases p <;> rfl

/-- R154, R206: a port that is named by its code is answered with its eight counters. -/
theorem readCountersReply_of_code {n : Nat} {p : Port} (s : State) (h : n = portCode p) :
    readCountersReply s n = Reply.ok (countersData p (s.port p).counters) := by
  unfold readCountersReply
  rw [h, portOfCode_portCode]

theorem readCountersReply_of_above {n : Nat} (s : State) (h : 1 < n) :
    readCountersReply s n = Reply.bare statusBadValue := by
  unfold readCountersReply
  rw [portOfCode_of_above h]

/-- R154: READ_COUNTERS answers with what stands once its own MREQ is counted. -/
theorem exec_readCounters (src : Addr) (port : Byte) {s : State} (h : s.TakesRequests) {status : Byte}
    {data : List Byte} (hreply : readCountersReply (s.frameConsumed .u) port.toNat =
      { status := status, data := data, mark := .plain }) :
    exec (.readCounters src port) s = .next (s.answered src (status :: data)) :=
  requestMade_kept src (.readCounters port) s status data h rfl rfl (congrArg (Prod.mk _) hreply)

/-- R154: CLEAR_COUNTERS clears the counters of both ports, its own MREQ's count among them. -/
theorem exec_clearCounters (src : Addr) {s : State} (h : s.TakesRequests) :
    exec (.clearCounters src) s = .next { s.answered src [0] with
      portU.counters := PortCounters.cleared, portD.counters := PortCounters.cleared } := by
  have ⟨⟨⟨_, harriving, hreserved, _⟩, _, hfollows⟩, _⟩ := h
  exact requestMade_answered src .clearCounters s
    { s.frameConsumed .u with portU.counters := PortCounters.cleared, portD.counters := PortCounters.cleared }
    (Reply.ok []) h rfl rfl rfl harriving hreserved (setHoldOut_of_follows _ hfollows)

/-- Settles O39: both requests are carried out where their own MREQ is counted on Port U. -/
theorem portCountersReadAndCleared : Obligations.PortCountersReadAndCleared := by
  intro src port s h
  refine ⟨fun hport => ?_, fun p hport => ?_, exec_clearCounters src h⟩
  · exact exec_readCounters src port h (readCountersReply_of_above _ hport)
  · have hcode : port.toNat = portCode p := by rw [hport]; cases p <;> rfl
    have hname : enc1 (portCode p) = [port] := by rw [← hcode]; simp [enc1]
    rw [exec_readCounters src port h (readCountersReply_of_code _ hcode)]
    unfold countersData
    rw [hname]
    cases p <;> rfl

end Sys2Proof.Machine

/-! The setpoints of chapter 10 (10.4): a Port D transmit start that takes a SETPT from FQD by its branches (R149, R166),
the limit a clamp applies (R187, R188), and the statement about them. -/

namespace Sys2Proof.Machine

/-! ## A Port D transmit start that reaches FQD (R149, R166) -/

theorem exec_transmitStart (p : Port) {s : State} (hr : s.resetIn = false) :
    exec (.transmitStart p) s = .next (transmitStarts p s) := by
  change Host.Outcome.next (whenWorking s (transmitStarts p)) = _
  rw [whenWorking_of_released s _ hr]

theorem transmitStarts_d_of_idle {s : State} (ht : s.portD.transmitter = none) (hh : s.portD.holdIn = false) :
    transmitStarts .d s = arbiterD s :=
  if_neg (by simp [State.port, ht, hh])

/-- R166: with no speed command pending and IQD empty the arbiter goes to FQD. -/
theorem arbiterD_of_only_fqd {s : State} (hl : s.store.latchPending = none) (hi : s.store.iqd = []) :
    arbiterD s = startFqd s.store.fqd s := by
  unfold arbiterD
  rw [hl, hi]

/-- The state after a Port D transmit start that sends `f` out of FQD, in which `rest` stays. -/
def State.sendFqd (s : State) (f : Frame) (rest : List FwdFrame) : State := { s with
  store.fqd := rest
  portD.transmitter := some { frame := f, origin := .forwarded, parity := s.tables.line.parityD, released := false } }

/-- R187: a SETPT is never withdrawn; it leaves with its setpoint examined. -/
theorem startFqd_of_setpt {e : FwdFrame} (hk : e.frame.kind = 5) (rest : List FwdFrame) (s : State) :
    startFqd (e :: rest) s =
      startFrame .d (rewriteSetpoint e { s with store.fqd := rest }).1 .forwarded
        (rewriteSetpoint e { s with store.fqd := rest }).2 := by
  have hsetpt : FrameKind.ofCode e.frame.kind = .setpt := by rw [hk]; rfl
  have hstays : ¬ s.withdraws e = true := by simp [State.withdraws, hsetpt]
  have hleave (t : State) : leaveFqd e t = rewriteSetpoint e t := if_pos hsetpt
  unfold startFqd
  rw [if_neg hstays, hleave]

/-! ## The setpoint examined (R187, R188) -/

theorem rewriteSetpoint_of_eq {e : FwdFrame} {s : State}
    (h : s.setpointOut e (numberAt e.frame.payload 1 2) = numberAt e.frame.payload 1 2) :
    rewriteSetpoint e s = (e.frame, s) :=
  if_pos h

theorem rewriteSetpoint_of_ne {e : FwdFrame} {s : State}
    (h : s.setpointOut e (numberAt e.frame.payload 1 2) ≠ numberAt e.frame.payload 1 2) :
    rewriteSetpoint e s =
      (withSetpoint e.frame (s.setpointOut e (numberAt e.frame.payload 1 2)), countSetpoint s) :=
  if_neg h

theorem countSetpoint_of_halted {s : State} (h : s.mode = .halted) :
    countSetpoint s = s.countClassifier (fun c => { c with zeroedSetpoints := bump c.zeroedSetpoints }) :=
  if_pos h

theorem countSetpoint_of_not_halted {s : State} (h : s.mode ≠ .halted) :
    countSetpoint s = s.countClassifier (fun c => { c with clampedSetpoints := bump c.clampedSetpoints }) :=
  if_neg h

/-- R187: the mode HALTED zeroes every setpoint. -/
theorem State.setpointOut_of_halted {s : State} (e : FwdFrame) (v : Nat) (h : s.mode = .halted) :
    s.setpointOut e v = 0 :=
  if_pos h

theorem State.setpointOut_of_not_clamp {s : State} {e : FwdFrame} (v : Nat) (hm : s.mode ≠ .halted)
    (ha : e.action ≠ .clamp) : s.setpointOut e v = v := by
  unfold State.setpointOut
  rw [if_neg hm, if_neg ha]

theorem State.setpointOut_of_clamp {s : State} {e : FwdFrame} (v : Nat) (hm : s.mode ≠ .halted)
    (ha : e.action = .clamp) : s.setpointOut e v = lowered (s.clampLimit e.destRole) v := by
  unfold State.setpointOut
  rw [if_neg hm, if_pos ha]

theorem creepLimit_of_other {r : Option Role} (l : LineSettings) (hh : r ≠ some .head) (ho : r ≠ some .hauloff) :
    creepLimit l r = none := by
  unfold creepLimit
  split
  · exact absurd rfl hh
  · exact absurd rfl ho
  · rfl

theorem productLimit_of_other {r : Option Role} (p : ProductRow) (hh : r ≠ some .head) (ho : r ≠ some .hauloff) :
    productLimit p r = none := by
  unfold productLimit
  split
  · exact absurd rfl hh
  · exact absurd rfl ho
  · rfl

theorem State.clampLimit_of_slow {s : State} (r : Option Role) (h : s.mode = .threading ∨ s.mode = .creep) :
    s.clampLimit r = creepLimit s.tables.line r := by
  unfold State.clampLimit
  rcases h with h | h <;> rw [h]

theorem State.clampLimit_of_run {s : State} (r : Option Role) (h : s.mode = .run) :
    s.clampLimit r = productLimit s.product r := by
  unfold State.clampLimit
  rw [h]

/-- R187, R188: no limit applies in PARKED, or to a role other than HEAD and HAULOFF. -/
theorem State.clampLimit_eq_none {s : State} {r : Option Role}
    (h : s.mode = .parked ∨ (r ≠ some .head ∧ r ≠ some .hauloff)) : s.clampLimit r = none := by
  unfold State.clampLimit
  rcases h with hparked | ⟨hh, ho⟩
  · rw [hparked]
  · cases s.mode with
    | parked | halted => rfl
    | threading | creep => exact creepLimit_of_other _ hh ho
    | run => exact productLimit_of_other _ hh ho

/-- R187: outside HALTED a setpoint leaves unchanged under FORWARD, in PARKED, and toward any other role. -/
theorem State.setpointOut_of_unlimited {s : State} {e : FwdFrame} (v : Nat) (hm : s.mode ≠ .halted)
    (h : e.action ≠ .clamp ∨ s.mode = .parked ∨ (e.destRole ≠ some .head ∧ e.destRole ≠ some .hauloff)) :
    s.setpointOut e v = v := by
  by_cases ha : e.action = .clamp
  · rw [s.setpointOut_of_clamp v hm ha, s.clampLimit_eq_none (h.resolve_left (not_not_intro ha))]
    rfl
  · exact s.setpointOut_of_not_clamp v hm ha

/-- R188: a mode in which a clamp has a limit is not HALTED. -/
theorem State.not_halted_of_clampLimit {s : State} {r : Option Role} {limit : Nat}
    (h : s.clampLimit r = some limit) : s.mode ≠ .halted := by
  intro hm
  simp [State.clampLimit, hm] at h

/-- R187: under a limit a CLAMP setpoint leaves as the lower of the two. -/
theorem State.setpointOut_of_limit {s : State} {e : FwdFrame} {limit : Nat} (v : Nat) (ha : e.action = .clamp)
    (h : s.clampLimit e.destRole = some limit) : s.setpointOut e v = min v limit := by
  rw [s.setpointOut_of_clamp v (State.not_halted_of_clampLimit h) ha, h]
  rfl

/-! ## The transmit start of a SETPT (R187) -/

/-- R149, R166: a Port D transmit start takes a SETPT from the front of FQD, which leaves `rest` there. -/
structure State.StartsSetpt (s : State) (e : FwdFrame) (rest : List FwdFrame) : Prop where
  working : s.resetIn = false
  idle : s.portD.transmitter = none
  released : s.portD.holdIn = false
  noLatch : s.store.latchPending = none
  noInjection : s.store.iqd = []
  front : s.store.fqd = e :: rest
  kind : e.frame.kind = 5

section Start

variable {s : State} {e : FwdFrame} {rest : List FwdFrame} (h : s.StartsSetpt e rest)
include h

theorem exec_transmitStart_setpt :
    exec (.transmitStart .d) s =
      .next (startFrame .d (rewriteSetpoint e { s with store.fqd := rest }).1 .forwarded
        (rewriteSetpoint e { s with store.fqd := rest }).2) := by
  rw [exec_transmitStart .d h.working, transmitStarts_d_of_idle h.idle h.released,
    arbiterD_of_only_fqd h.noLatch h.noInjection, h.front, startFqd_of_setpt h.kind]

/-- R187: a setpoint that stays as it is leaves in its own frame, and nothing is counted. -/
theorem exec_transmitStart_setpt_unchanged
    (hv : s.setpointOut e (numberAt e.frame.payload 1 2) = numberAt e.frame.payload 1 2) :
    exec (.transmitStart .d) s = .next (s.sendFqd e.frame rest) := by
  rw [exec_transmitStart_setpt h, rewriteSetpoint_of_eq (by exact hv)]
  rfl

/-- R187: a changed setpoint leaves in the frame rewritten, and is counted. -/
theorem exec_transmitStart_setpt_changed {w : Nat} (hw : s.setpointOut e (numberAt e.frame.payload 1 2) = w)
    (hne : w ≠ numberAt e.frame.payload 1 2) :
    exec (.transmitStart .d) s = .next ((countSetpoint s).sendFqd (withSetpoint e.frame w) rest) := by
  subst hw
  rw [exec_transmitStart_setpt h, rewriteSetpoint_of_ne (by exact hne)]
  by_cases hm : s.mode = .halted
  · rw [countSetpoint_of_halted hm, countSetpoint_of_halted (by exact hm)]
    rfl
  · rw [countSetpoint_of_not_halted hm, countSetpoint_of_not_halted (by exact hm)]
    rfl

/-- R187: under a limit a CLAMP setpoint at or below it leaves unchanged, one above it is lowered to it and counted
as clamped. -/
theorem exec_transmitStart_setpt_clamped {limit : Nat} (ha : e.action = .clamp)
    (hl : s.clampLimit e.destRole = some limit) :
    (numberAt e.frame.payload 1 2 ≤ limit → exec (.transmitStart .d) s = .next (s.sendFqd e.frame rest))
    ∧ (limit < numberAt e.frame.payload 1 2 → exec (.transmitStart .d) s =
        .next ((s.countClassifier (fun c => { c with clampedSetpoints := bump c.clampedSetpoints })).sendFqd
          (withSetpoint e.frame limit) rest)) := by
  have hout := State.setpointOut_of_limit (numberAt e.frame.payload 1 2) ha hl
  constructor
  · intro hle
    exact exec_transmitStart_setpt_unchanged h (hout.trans (Nat.min_eq_left hle))
  · intro hlt
    rw [exec_transmitStart_setpt_changed h (hout.trans (Nat.min_eq_right (Nat.le_of_lt hlt))) (Nat.ne_of_lt hlt),
      countSetpoint_of_not_halted (State.not_halted_of_clampLimit hl)]

end Start

/-- Settles O49: HALTED zeroes, a mode, action or role without a limit changes nothing, and each of the four limits is
met as any limit is. -/
theorem setpointLimited : Obligations.SetpointLimited := by
  intro s e rest hreset hidle hheld hlatch hiqd hfqd hkind v slow send changed clampedTo
  have h : s.StartsSetpt e rest := ⟨hreset, hidle, hheld, hlatch, hiqd, hfqd, hkind⟩
  have hclamped {r : Role} {limit : Nat} (ha : e.action = .clamp) (hr : e.destRole = some r)
      (hl : s.clampLimit (some r) = some limit) : clampedTo limit :=
    exec_transmitStart_setpt_clamped h ha (by rw [hr, hl])
  refine ⟨fun hm hv => ?_, fun hm hv => ?_, fun hm hfree => ?_, fun ha hr hm => ?_, fun ha hr hm => ?_,
    fun ha hr hm => ?_, fun ha hr hm => ?_⟩
  · rw [exec_transmitStart_setpt_changed h (s.setpointOut_of_halted e v hm) (Ne.symm hv), countSetpoint_of_halted hm]
    rfl
  · exact exec_transmitStart_setpt_unchanged h ((s.setpointOut_of_halted e v hm).trans hv.symm)
  · exact exec_transmitStart_setpt_unchanged h (State.setpointOut_of_unlimited v hm hfree)
  · exact hclamped ha hr (s.clampLimit_of_slow _ hm)
  · exact hclamped ha hr (s.clampLimit_of_slow _ hm)
  · exact hclamped ha hr (s.clampLimit_of_run _ hm)
  · exact hclamped ha hr (s.clampLimit_of_run _ hm)

end Sys2Proof.Machine

/-! Steps and invariants (R203 and 95_what_each_step_holds): the effect of a command as a function of the state, one
induction principle over all commands, and the statements that every command or every step keeps something. -/

namespace Sys2Proof.Machine

/-! ## The effect of a command -/

/-- What a command makes of the state, its queue of waiting commands included. Every request is the MREQ that carries
it, on Port U (log 4). -/
def commandEffect (c : Instr) (s : State) : State :=
  match c with
  | .powerUp => powerUpState s
  | .pinReset => { pinResetState s with resetIn := true }
  | .pinResetRelease => { s with resetIn := false }
  | .characterReceived p c => whenWorking s (characterReceived p c)
  | .arrival p f => whenWorking s (withSlot p (arrive p f))
  | .turns unit payload => whenWorking s (turnsReceived unit payload)
  | .haul payload => whenWorking s (haulReceived payload)
  | .rowdone payload => whenWorking s (rowdoneReceived payload)
  | .cutdone payload => whenWorking s (cutdoneReceived payload)
  | .take _ => whenWorking s takeReceived
  | .packed src payload => whenWorking s (packedReceived src payload)
  | .mreq p src payload => whenWorking s (mreqReceived p src payload)
  | .readRow src table row page => whenWorking s (mreqReceived .u src (Request.readRow table row page).encode)
  | .writeFields src table row pairs =>
    whenWorking s (mreqReceived .u src (Request.writeFields table row pairs).encode)
  | .setMode src target => whenWorking s (mreqReceived .u src (Request.setMode target).encode)
  | .setProduct src slot => whenWorking s (mreqReceived .u src (Request.setProduct slot).encode)
  | .setNext src slot => whenWorking s (mreqReceived .u src (Request.setNext slot).encode)
  | .release src => whenWorking s (mreqReceived .u src Request.release.encode)
  | .cut src => whenWorking s (mreqReceived .u src Request.cut.encode)
  | .clearFault src kind source => whenWorking s (mreqReceived .u src (Request.clearFault kind source).encode)
  | .clearAll src => whenWorking s (mreqReceived .u src Request.clearAll.encode)
  | .readFaults src part index => whenWorking s (mreqReceived .u src (Request.readFaults part index).encode)
  | .readCoil src record page => whenWorking s (mreqReceived .u src (Request.readCoil record page).encode)
  | .readHead src unit => whenWorking s (mreqReceived .u src (Request.readHead unit).encode)
  | .readMesh src page => whenWorking s (mreqReceived .u src (Request.readMesh page).encode)
  | .readStatus src page => whenWorking s (mreqReceived .u src (Request.readStatus page).encode)
  | .readCounters src port => whenWorking s (mreqReceived .u src (Request.readCounters port).encode)
  | .clearCounters src => whenWorking s (mreqReceived .u src Request.clearCounters.encode)
  | .setAddress src address => whenWorking s (mreqReceived .u src (Request.setAddress address).encode)
  | .reset src => whenWorking s (mreqReceived .u src Request.reset.encode)
  | .timeBaseExpiry => whenWorking s timeBaseExpired
  | .haulwatchUnderflow => whenWorking s haulwatchUnderflows
  | .cutwaitUnderflow => whenWorking s cutwaitUnderflows
  | .coilUnderflow amount => whenWorking s (fun s =>
      if underflowsAt s.tally.coil.running s.tally.coil.current amount then giveCoil amount s else s)
  | .markUnderflow amount => whenWorking s (fun s =>
      if underflowsAt s.tally.mark.running s.tally.mark.current amount then giveMark amount s else s)
  | .windowEnd amount => whenWorking s (fun s =>
      if underflowsAt s.tally.window.running s.tally.window.current amount then giveWindow amount s else s)
  | .holdInAsserted p => setHoldIn p true s
  | .holdInReleased p => whenWorking (setHoldIn p false s) (transmitStarts p)
  | .transmitStart p => whenWorking s (transmitStarts p)
  | .departure p => whenWorking s (departure p)

/-- No command ends in a fault or a refusal: each answers its effect. -/
theorem exec_eq_next (c : Instr) (s : State) : exec c s = .next (commandEffect c s) := by
  cases c <;> rfl

/-! ## Induction over the commands -/

/-- A property that every operation a command consists of keeps. -/
structure KeptByCommands (P : State → Prop) : Prop where
  powerUp : ∀ s, P s → P (powerUpState s)
  pinReset : ∀ s, P s → P { pinResetState s with resetIn := true }
  pinResetRelease : ∀ s, P s → P { s with resetIn := false }
  characterReceived : ∀ p c s, P s → P (characterReceived p c s)
  arrival : ∀ p f s, P s → P (withSlot p (arrive p f) s)
  turns : ∀ u pl s, P s → P (turnsReceived u pl s)
  haul : ∀ pl s, P s → P (haulReceived pl s)
  rowdone : ∀ pl s, P s → P (rowdoneReceived pl s)
  cutdone : ∀ pl s, P s → P (cutdoneReceived pl s)
  take : ∀ s, P s → P (takeReceived s)
  packed : ∀ src pl s, P s → P (packedReceived src pl s)
  mreq : ∀ p src pl s, P s → P (mreqReceived p src pl s)
  timeBase : ∀ s, P s → P (timeBaseExpired s)
  haulwatch : ∀ s, P s → P (haulwatchUnderflows s)
  cutwait : ∀ s, P s → P (cutwaitUnderflows s)
  coil : ∀ n s, P s → P (giveCoil n s)
  mark : ∀ n s, P s → P (giveMark n s)
  window : ∀ n s, P s → P (giveWindow n s)
  holdIn : ∀ p level s, P s → P (setHoldIn p level s)
  transmitStarts : ∀ p s, P s → P (transmitStarts p s)
  departure : ∀ p s, P s → P (departure p s)

/-- A kept property holds of every command's effect. -/
theorem KeptByCommands.effect {P : State → Prop} (k : KeptByCommands P) (c : Instr) {s : State} (h : P s) :
    P (commandEffect c s) := by
  cases c with
  | powerUp => exact k.powerUp s h
  | pinReset => exact k.pinReset s h
  | pinResetRelease => exact k.pinResetRelease s h
  | characterReceived p c => exact whenWorking_ind s _ h fun _ => k.characterReceived p c s h
  | arrival p f => exact whenWorking_ind s _ h fun _ => k.arrival p f s h
  | turns u pl => exact whenWorking_ind s _ h fun _ => k.turns u pl s h
  | haul pl => exact whenWorking_ind s _ h fun _ => k.haul pl s h
  | rowdone pl => exact whenWorking_ind s _ h fun _ => k.rowdone pl s h
  | cutdone pl => exact whenWorking_ind s _ h fun _ => k.cutdone pl s h
  | take pl => exact whenWorking_ind s _ h fun _ => k.take s h
  | packed src pl => exact whenWorking_ind s _ h fun _ => k.packed src pl s h
  | timeBaseExpiry => exact whenWorking_ind s _ h fun _ => k.timeBase s h
  | haulwatchUnderflow => exact whenWorking_ind s _ h fun _ => k.haulwatch s h
  | cutwaitUnderflow => exact whenWorking_ind s _ h fun _ => k.cutwait s h
  | coilUnderflow n => exact whenWorking_ind s _ h fun _ => ite_ind _ _ s h fun _ => k.coil n s h
  | markUnderflow n => exact whenWorking_ind s _ h fun _ => ite_ind _ _ s h fun _ => k.mark n s h
  | windowEnd n => exact whenWorking_ind s _ h fun _ => ite_ind _ _ s h fun _ => k.window n s h
  | holdInAsserted p => exact k.holdIn p true s h
  | holdInReleased p =>
    have hp := k.holdIn p false s h
    exact whenWorking_ind _ _ hp fun _ => k.transmitStarts p _ hp
  | transmitStart p => exact whenWorking_ind s _ h fun _ => k.transmitStarts p s h
  | departure p => exact whenWorking_ind s _ h fun _ => k.departure p s h
  | _ => exact whenWorking_ind s _ h fun _ => k.mreq _ _ _ s h

/-- A kept property that does not look at the queue of waiting commands holds after every step. -/
theorem KeptByCommands.step {P : State → Prop} (k : KeptByCommands P)
    (hq : ∀ (s : State) (rest : List Instr), P s → P { s with pending := rest }) {s t : State} (h : P s)
    (ht : Machine.step s = .next t) : P t := by
  unfold Machine.step at ht
  split at ht
  · cases ht
    exact h
  · rename_i c rest _
    rw [exec_eq_next] at ht
    cases ht
    exact k.effect c (hq s rest h)

/-- A HAULWATCH underflow does nothing where HAULWATCH is stopped. -/
theorem haulwatchUnderflows_ind {P : State → Prop} (s : State) (h : P s)
    (hf : P (haulSilent { s with tally.haulwatch := s.tally.haulwatch.underflow 0 })) :
    P (haulwatchUnderflows s) := by
  unfold haulwatchUnderflows
  split
  · exact hf
  · exact h

/-- A CUTWAIT underflow does nothing where CUTWAIT is stopped. -/
theorem cutwaitUnderflows_ind {P : State → Prop} (s : State) (h : P s)
    (hf : P (cutwaitExpired { s with tally.cutwait := s.tally.cutwait.underflow 0 })) :
    P (cutwaitUnderflows s) := by
  unfold cutwaitUnderflows
  split
  · exact hf
  · exact h

/-! ## The waiting commands -/

theorem finishU_pending (h : Holding) (s : State) : (finishU h s).pending = s.pending := by
  unfold finishU
  split
  · rfl
  · simp
  · simp
  · simp

/-- No operation touches the queue of waiting commands. -/
theorem keptByCommands_pending (q : List Instr) : KeptByCommands (fun s => s.pending = q) where
  powerUp _ h := h
  pinReset _ h := h
  pinResetRelease _ h := h
  characterReceived p c s h := by simpa using h
  arrival p f s h := withSlot_ind (P := fun s => s.pending = q) p _ s (by simpa using h) fun _ => by simpa using h
  turns u pl s h := by simpa using h
  haul pl s h := by simpa using h
  rowdone pl s h := by simpa using h
  cutdone pl s h := by simpa using h
  take s h := by simpa using h
  packed src pl s h := by simpa using h
  mreq p src pl s h := withSlot_ind (P := fun s => s.pending = q) p _ s (by simpa using h) fun _ => by simpa using h
  timeBase s h := by simpa using h
  haulwatch s h := by simpa using h
  cutwait s h := by simpa using h
  coil n s h := by simpa using h
  mark n s h := by simpa using h
  window n s h := by simpa using h
  holdIn p level s h := by simpa using h
  transmitStarts p s h := by simpa using h
  departure p s h := by
    unfold departure
    split
    · exact h
    · unfold departs
      cases p
      · exact (finishU_pending _ _).trans (by simpa using h)
      · simpa using h

/-- Settles O2: a command answers its effect, and its operations keep the waiting commands. -/
theorem everyCommandCompletes : Obligations.EveryCommandCompletes := fun c s =>
  ⟨commandEffect c s, exec_eq_next c s, (keptByCommands_pending s.pending).effect c rfl⟩

/-- Settles O1, by the two cases of the queue. -/
theorem stepRunsFrontCommand : Obligations.StepRunsFrontCommand := by
  refine ⟨fun c rest s h => ?_, fun s h => ?_⟩
  · simp only [step, h]
  · simp only [step, h]

/-! ## The frame store (R157 to R163, R170) -/

theorem SB.grows {s t : State} (h : SB s) (g : StoreGrows s t) : SB t := ⟨h.1.grows g, g.arriving.trans h.2⟩

theorem SB.of_view {s t : State} (h : SB s) (hv : storeView t = storeView s) : SB t := h.grows (.of_view hv)

theorem haulSilent_grows (s : State) : StoreGrows s (haulSilent s) := raise_grows _ _ _ _ s

theorem handExpiries_grows (watch wait : Bool) (s : State) : StoreGrows s (handExpiries watch wait s) := by
  unfold handExpiries
  split
  · exact .refl s
  · exact haulSilent_grows s
  · exact cutwaitExpired_grows s
  · have drawn : StoreGrows s s.drawn := .of_view rfl
    split
    · exact (drawn.trans (haulSilent_grows _)).trans (cutwaitExpired_grows _)
    · exact (drawn.trans (cutwaitExpired_grows _)).trans (haulSilent_grows _)

theorem timeBaseExpired_grows (s : State) : StoreGrows s (timeBaseExpired s) :=
  have ticked : StoreGrows s
      { s with tally.haulwatch := s.tally.haulwatch.tick, tally.cutwait := s.tally.cutwait.tick } := .of_view rfl
  ticked.trans (handExpiries_grows _ _ _)

theorem haulwatchUnderflows_grows (s : State) : StoreGrows s (haulwatchUnderflows s) :=
  have stopped : StoreGrows s { s with tally.haulwatch := s.tally.haulwatch.underflow 0 } := .of_view rfl
  haulwatchUnderflows_ind s (.refl s) (stopped.trans (haulSilent_grows _))

theorem cutwaitUnderflows_grows (s : State) : StoreGrows s (cutwaitUnderflows s) :=
  have stopped : StoreGrows s { s with tally.cutwait := s.tally.cutwait.underflow 0 } := .of_view rfl
  cutwaitUnderflows_ind s (.refl s) (stopped.trans (cutwaitExpired_grows _))

theorem setHoldIn_SB (p : Port) (level : Bool) {s : State} (h : SB s) : SB (setHoldIn p level s) := by
  cases p <;> exact h.of_view rfl

/-- R157 to R163: every command keeps the bounds of the frame store. -/
theorem keptByCommands_SB : KeptByCommands SB where
  powerUp _ _ := bounded_init _ rfl ⟨_, rfl⟩ ⟨_, rfl⟩
  pinReset _ _ := bounded_init _ rfl ⟨_, rfl⟩ ⟨_, rfl⟩
  pinResetRelease _ h := h.of_view rfl
  characterReceived p c s h := characterReceived_SB p c s h
  arrival p f s h := withSlot_SB p _ s h (arrive_bounded p f)
  turns u pl s h := SB.grows h (turnsReceived_grows u pl s)
  haul pl s h := SB.grows h (haulReceived_grows pl s)
  rowdone pl s h := SB.grows h (rowdoneReceived_grows pl s)
  cutdone pl s h := SB.grows h (cutdoneReceived_grows pl s)
  take s h := SB.grows h (takeReceived_grows s)
  packed src pl s h := SB.grows h (packedReceived_grows src pl s)
  mreq p src pl s h := mreqReceived_SB p src pl s h
  timeBase s h := SB.grows h (timeBaseExpired_grows s)
  haulwatch s h := SB.grows h (haulwatchUnderflows_grows s)
  cutwait s h := SB.grows h (cutwaitUnderflows_grows s)
  coil n s h := SB.grows h (giveCoil_grows n s)
  mark n s h := SB.grows h (giveMark_grows n s)
  window n s h := SB.grows h (giveWindow_grows n s)
  holdIn p level _ h := setHoldIn_SB p level h
  transmitStarts p s h := transmitStarts_SB p s h
  departure p s h := departure_SB p s h

/-- Settles O53: the operations inside an arrival or a departure keep the bounds, and both leave the part at rest. -/
theorem storeStaysBounded : Obligations.StoreStaysBounded := fun s t hs ht =>
  (storeBounded_iff t).2 (keptByCommands_SB.step (fun _ _ h => SB.of_view h rfl) ((storeBounded_iff s).1 hs) ht)

/-! ## HOLD-OUT (R152) -/

theorem setHoldIn_hof (p : Port) (level : Bool) (s : State) (h : s.HoldOutFollows) :
    (setHoldIn p level s).HoldOutFollows := by
  cases p <;> exact h

/-- R152: with the frame store and the ports cleared all 24 slots are free, above every threshold. -/
theorem cleared_hof {s : State} (ho : s.holdOut = false) (hs : s.store = Store.cleared)
    (hu : ∃ b, s.portU = PortState.cleared b) (hd : ∃ b, s.portD = PortState.cleared b)
    (ht : s.tables.line.holdThreshold ≤ 12) : s.HoldOutFollows := by
  obtain ⟨b, hu⟩ := hu
  obtain ⟨b', hd⟩ := hd
  have free : s.freeForwarding = 24 := by
    simp [State.freeForwarding, State.heldForwarding, hs, hu, hd, Store.cleared, PortState.cleared, Receiver.slots,
      transmitterSlots]
  refine ⟨by rw [hs]; rfl, ht, ?_⟩
  simp only [ho, free, Bool.false_eq_true, false_iff]
  omega

/-- R152: every command keeps the HOLD-OUT level. What sets it at the end of an arrival needs the threshold's bound
alone. -/
theorem keptByCommands_holdOutFollows : KeptByCommands State.HoldOutFollows where
  powerUp _ _ := cleared_hof rfl rfl ⟨_, rfl⟩ ⟨_, rfl⟩
    (by simp [powerUpState, State.reset, Tables.powerUp, LineSettings.powerUp])
  pinReset _ h := cleared_hof rfl rfl ⟨_, rfl⟩ ⟨_, rfl⟩ h.2.1
  pinResetRelease _ h := h
  characterReceived p c s h := characterReceived_hof p c s h
  arrival p f s h := withSlot_hof p _ s h (arrive_thr p f)
  turns u pl s h := hof_of h (turnsReceived_grows u pl s) (by simp) (by simp)
  haul pl s h := hof_of h (haulReceived_grows pl s) (by simp) (by simp)
  rowdone pl s h := hof_of h (rowdoneReceived_grows pl s) (by simp) (by simp)
  cutdone pl s h := hof_of h (cutdoneReceived_grows pl s) (by simp) (by simp)
  take s h := hof_of h (takeReceived_grows s) (by simp) (by simp)
  packed src pl s h := hof_of h (packedReceived_grows src pl s) (by simp) (by simp)
  mreq p src pl s h := mreqReceived_hof p src pl s h
  timeBase s h := hof_of h (timeBaseExpired_grows s) (by simp) (by simp)
  haulwatch s h := hof_of h (haulwatchUnderflows_grows s) (by simp) (by simp)
  cutwait s h := hof_of h (cutwaitUnderflows_grows s) (by simp) (by simp)
  coil n s h := hof_of h (giveCoil_grows n s) (by simp) (by simp)
  mark n s h := hof_of h (giveMark_grows n s) (by simp) (by simp)
  window n s h := hof_of h (giveWindow_grows n s) (by simp) (by simp)
  holdIn p level s h := setHoldIn_hof p level s h
  transmitStarts p s h := transmitStarts_hof p s h
  departure p s h := departure_hof p s h

/-- Settles O54. -/
theorem holdOutKeepsFollowing : Obligations.HoldOutKeepsFollowing := fun _ _ hs ht =>
  keptByCommands_holdOutFollows.step (fun _ _ h => h) hs ht

/-! ## The haul balance (R19, R86) -/

theorem mreqReceived_bal (p : Port) (src : Addr) (pl : List Byte) (s : State) (h : s.HaulBalanced) :
    (mreqReceived p src pl s).HaulBalanced :=
  withSlot_ind p _ s (.of_view (s := s) (by simp [balView]) h) fun _ =>
    endArrival_bal _ (.of_view (s := s) (by simp [balView]) h)

/-- R19, R86: every command keeps the haul balance. -/
theorem keptByCommands_haulBalanced : KeptByCommands State.HaulBalanced where
  powerUp _ _ := HaulBalanced_init _ rfl rfl
  pinReset _ _ := HaulBalanced_init _ rfl rfl
  pinResetRelease _ h := h
  characterReceived p c s h := characterReceived_bal p c s h
  arrival p f s h := withSlot_ind p _ s (.of_view (s := s) (by simp [balView]) h) fun _ =>
    endArrival_bal _ (arrive_bal p f _ h)
  turns u pl s h := .of_view (s := s) (by simp [balView]) h
  haul pl s h := haulReceived_bal pl s h
  rowdone pl s h := .of_view (s := s) (by simp [balView]) h
  cutdone pl s h := cutdoneReceived_bal pl s h
  take s h := .of_view (s := s) (by simp [balView]) h
  packed src pl s h := packedReceived_bal src pl s h
  mreq p src pl s h := mreqReceived_bal p src pl s h
  timeBase s h := .of_view (s := s) (by simp [balView]) h
  haulwatch s h := .of_view (s := s) (by simp [balView]) h
  cutwait s h := .of_view (s := s) (by simp [balView]) h
  coil n s h := .of_view (s := s) (by simp [balView]) h
  mark n s h := .of_view (s := s) (by simp [balView]) h
  window n s h := .of_view (s := s) (by simp [balView]) h
  holdIn p level s h := .of_view (s := s) (by simp [balView]) h
  transmitStarts p s h := .of_view (s := s) (by simp [balView]) h
  departure p s h := departure_bal p s h

/-- Settles O55. -/
theorem haulStaysBalanced : Obligations.HaulStaysBalanced := fun _ _ hs ht =>
  keptByCommands_haulBalanced.step (fun _ _ h => h) hs ht

/-! ## The coils (R84, R85, R100) -/

/-- R84, R85, R100: every command keeps the coil queue and the open coil in order. -/
theorem keptByCommands_coilsOrdered : KeptByCommands State.CoilsOrdered where
  powerUp _ _ := coils_init _ rfl rfl
  pinReset _ _ := coils_init _ rfl rfl
  pinResetRelease _ h := h
  characterReceived p c s h := characterReceived_coils p c s h
  arrival p f s h := withSlot_ind p _ s (.of_view (s := s) (by simp [coilView]) h) fun _ =>
    endArrival_coils _ (arrive_coils p f _ h)
  turns u pl s h := .of_view (s := s) (by simp [coilView]) h
  haul pl s h := haulReceived_coils pl s h
  rowdone pl s h := .of_view (s := s) (by simp [coilView]) h
  cutdone pl s h := cutdoneReceived_coils pl s h
  take s h := takeReceived_coils s h
  packed src pl s h := packedReceived_coils src pl s h
  mreq p src pl s h := mreqReceived_coils p src pl s h
  timeBase s h := timeBase_coils s h
  haulwatch s h := .of_view (s := s) (by simp [coilView]) h
  cutwait s h := cutwaitUnderflows_ind s h
    (cutwaitExpired_coils _ (h.moved rfl h.opened h.room fun hr => by cases hr) rfl)
  coil n s h := giveCoil_coils n s h
  mark n s h := giveMark_coils n s h
  window n s h := giveWindow_coils n s h
  holdIn p level s h := .of_view (s := s) (by simp [coilView]) h
  transmitStarts p s h := .of_view (s := s) (by simp [coilView]) h
  departure p s h := departure_coils p s h

/-- Settles O56. -/
theorem coilsStayOrdered : Obligations.CoilsStayOrdered := fun _ _ hs ht =>
  keptByCommands_coilsOrdered.step (fun _ _ h => h) hs ht

/-! ## The BROKEN heads (R39, R123) -/

/-- R39, R123: every command keeps the line halted while a head is BROKEN. -/
theorem keptByCommands_breakHalts : KeptByCommands State.BreakHalts where
  powerUp _ _ := breaks_init _ rfl rfl
  pinReset _ h := breaks_init _ h.1 rfl
  pinResetRelease s h := .of_view (s := s) rfl h
  characterReceived p c s h := characterReceived_breaks p c s h
  arrival p f s h := withSlot_ind p _ s (.of_view (s := s) (by simp [headView]) h) fun _ =>
    endArrival_breaks _ (arrive_breaks p f _ (.of_view (s := s) rfl h))
  turns u pl s h := turnsReceived_breaks u pl s h
  haul pl s h := haulReceived_breaks pl s h
  rowdone pl s h := rowdoneReceived_breaks pl s h
  cutdone pl s h := cutdoneReceived_breaks pl s h
  take s h := .of_view (s := s) (by simp [headView]) h
  packed src pl s h := packedReceived_breaks src pl s h
  mreq p src pl s h := mreqReceived_breaks p src pl s h
  timeBase s h := timeBase_breaks s h
  haulwatch s h := haulwatchUnderflows_ind s h (raise_breaks _ _ _ _ _ (.of_view (s := s) rfl h))
  cutwait s h := cutwaitUnderflows_ind s h (cutwaitExpired_breaks _ (.of_view (s := s) rfl h))
  coil n s h := giveCoil_breaks n s h
  mark n s h := giveMark_breaks n s h
  window n s h := giveWindow_breaks n s h
  holdIn p level s h := .of_view (s := s) (by simp [headView]) h
  transmitStarts p s h := .of_view (s := s) (by simp [headView]) h
  departure p s h := departure_breaks p s h

/-- Settles O57. -/
theorem breaksKeepTheLineHalted : Obligations.BreaksKeepTheLineHalted := fun _ _ hs ht =>
  keptByCommands_breakHalts.step (fun s _ h => .of_view (s := s) rfl h) hs ht

/-! ## The mode, HAULWATCH and the speed latch (R17, R32, R165) -/

theorem haulwatchUnderflow_modes (s : State) (h : s.ModeAgrees) :
    ({ s with tally.haulwatch := s.tally.haulwatch.underflow 0 } : State).ModeAgrees :=
  ⟨nofun, h.2⟩

/-- R17, R32, R165: every command keeps HAULWATCH and the latch in agreement with the mode. -/
theorem keptByCommands_modeAgrees : KeptByCommands State.ModeAgrees where
  powerUp _ _ := ⟨nofun, nofun⟩
  pinReset _ _ := ⟨nofun, nofun⟩
  pinResetRelease _ h := h
  characterReceived p c s h := characterReceived_modes p c s h
  arrival p f s h := withSlot_ind p _ s (.of_view (s := s) (by simp [modeView]) h) fun _ =>
    endArrival_modes _ (arrive_modes p f _ h)
  turns u pl s h := turnsReceived_modes u pl s h
  haul pl s h := haulReceived_modes pl s h
  rowdone pl s h := rowdoneReceived_modes pl s h
  cutdone pl s h := cutdoneReceived_modes pl s h
  take s h := .of_view (s := s) (by simp [modeView]) h
  packed src pl s h := packedReceived_modes src pl s h
  mreq p src pl s h := mreqReceived_modes p src pl s h
  timeBase s h := timeBase_modes s h
  haulwatch s h := haulwatchUnderflows_ind s h (raise_modes _ _ _ _ _ (haulwatchUnderflow_modes s h))
  cutwait s h := cutwaitUnderflows_ind s h (cutwaitExpired_modes _ (.of_view (s := s) rfl h))
  coil n s h := giveCoil_modes n s h
  mark n s h := giveMark_modes n s h
  window n s h := giveWindow_modes n s h
  holdIn p level s h := .of_view (s := s) (by simp [modeView]) h
  transmitStarts p s h := transmitStarts_modes p s h
  departure p s h := departure_modes p s h

/-- Settles O58. -/
theorem modeStaysAgreed : Obligations.ModeStaysAgreed := fun _ _ hs ht =>
  keptByCommands_modeAgrees.step (fun _ _ h => h) hs ht

/-! ## The fault list (R125 to R130) -/

theorem takeReceived_faults (s : State) (h : s.FaultsListed) : (takeReceived s).FaultsListed :=
  .of_view (s := s) (by simp [faultView]) h

/-- R125 to R130: every command keeps the fault list sound while the frame store is within its bounds, which a
departure needs. -/
theorem keptByCommands_faultsListed : KeptByCommands (fun s => SB s ∧ s.FaultsListed) where
  powerUp s h := ⟨keptByCommands_SB.powerUp s h.1, faults_init _ rfl rfl rfl⟩
  pinReset s h := ⟨keptByCommands_SB.pinReset s h.1, faults_init _ rfl rfl rfl⟩
  pinResetRelease s h := ⟨keptByCommands_SB.pinResetRelease s h.1, .of_view (s := s) rfl h.2⟩
  characterReceived p c s h :=
    ⟨keptByCommands_SB.characterReceived p c s h.1, characterReceived_faults p c s h.2⟩
  arrival p f s h := ⟨keptByCommands_SB.arrival p f s h.1,
    withSlot_ind p _ s (.of_view (s := s) (by simp [faultView]) h.2) fun _ =>
      endArrival_faults _ (arrive_faults p f _ (.of_view (s := s) rfl h.2))⟩
  turns u pl s h := ⟨keptByCommands_SB.turns u pl s h.1, turnsReceived_faults u pl s h.2⟩
  haul pl s h := ⟨keptByCommands_SB.haul pl s h.1, haulReceived_faults pl s h.2⟩
  rowdone pl s h := ⟨keptByCommands_SB.rowdone pl s h.1, rowdoneReceived_faults pl s h.2⟩
  cutdone pl s h := ⟨keptByCommands_SB.cutdone pl s h.1, cutdoneReceived_faults pl s h.2⟩
  take s h := ⟨keptByCommands_SB.take s h.1, takeReceived_faults s h.2⟩
  packed src pl s h := ⟨keptByCommands_SB.packed src pl s h.1, packedReceived_faults src pl s h.2⟩
  mreq p src pl s h := ⟨keptByCommands_SB.mreq p src pl s h.1, mreqReceived_faults p src pl s h.2⟩
  timeBase s h := ⟨keptByCommands_SB.timeBase s h.1, timeBase_faults s h.2⟩
  haulwatch s h := ⟨keptByCommands_SB.haulwatch s h.1,
    haulwatchUnderflows_ind s h.2 (raise_faults _ _ _ _ _ (.of_view (s := s) rfl h.2))⟩
  cutwait s h := ⟨keptByCommands_SB.cutwait s h.1,
    cutwaitUnderflows_ind s h.2 (cutwaitExpired_faults _ (.of_view (s := s) rfl h.2))⟩
  coil n s h := ⟨keptByCommands_SB.coil n s h.1, giveCoil_faults n s h.2⟩
  mark n s h := ⟨keptByCommands_SB.mark n s h.1, giveMark_faults n s h.2⟩
  window n s h := ⟨keptByCommands_SB.window n s h.1, giveWindow_faults n s h.2⟩
  holdIn p level s h := ⟨keptByCommands_SB.holdIn p level s h.1, .of_view (s := s) (by cases p <;> rfl) h.2⟩
  transmitStarts p s h := ⟨keptByCommands_SB.transmitStarts p s h.1, transmitStarts_faults p s h.2⟩
  departure p s h :=
    ⟨keptByCommands_SB.departure p s h.1, departure_faults p s ((storeBounded_iff s).2 h.1) h.2⟩

/-- Settles O59, beside the bounds of the frame store. -/
theorem faultListStaysSound : Obligations.FaultListStaysSound := fun s _ hb hs ht =>
  (keptByCommands_faultsListed.step (fun s _ h => ⟨SB.of_view h.1 rfl, .of_view (s := s) rfl h.2⟩)
    ⟨(storeBounded_iff s).1 hb, hs⟩ ht).2

/-! ## The loaded tables and the mesh monitor (R60 to R74, R195) -/

/-- R60 to R74, R195: every command keeps the tables in range and the mesh monitor sound. -/
theorem keptByCommands_meshSound : KeptByCommands State.MeshSound where
  powerUp _ _ := reset_sound _ powerUp_inRange rfl
  pinReset _ h := reset_sound _ h.1 rfl
  pinResetRelease _ h := h
  characterReceived p c s h := characterReceived_sound p c s h
  arrival p f s h := withSlot_ind p _ s (.of_view (s := s) (by simp [meshView]) h) fun _ =>
    endArrival_sound _ (arrive_sound p f _ h)
  turns u pl s h := .of_view (s := s) (by simp [meshView]) h
  haul pl s h := .of_view (s := s) (by simp [meshView]) h
  rowdone pl s h := rowdoneReceived_sound pl s h
  cutdone pl s h := cutdoneReceived_sound pl s h
  take s h := .of_view (s := s) (by simp [meshView]) h
  packed src pl s h := .of_view (s := s) (by simp [meshView]) h
  mreq p src pl s h := mreqReceived_sound p src pl s h
  timeBase s h := .of_view (s := s) (by simp [meshView]) h
  haulwatch s h := .of_view (s := s) (by simp [meshView]) h
  cutwait s h := .of_view (s := s) (by simp [meshView]) h
  coil n s h := .of_view (s := s) (by simp [meshView]) h
  mark n s h := .of_view (s := s) (by simp [meshView]) h
  window n s h := .of_view (s := s) (by simp [meshView]) h
  holdIn p level s h := .of_view (s := s) (by simp [meshView]) h
  transmitStarts p s h := .of_view (s := s) (by simp [meshView]) h
  departure p s h := departure_sound p s h

/-- Settles O60. -/
theorem meshStaysSound : Obligations.MeshStaysSound := fun _ _ hs ht =>
  keptByCommands_meshSound.step (fun _ _ h => h) hs ht

/-- Settles O52, by what a cleared block gives each invariant. -/
theorem invariantsHoldAtReset : Obligations.InvariantsHoldAtReset :=
  ⟨(storeBounded_iff _).2 (bounded_init _ rfl ⟨_, rfl⟩ ⟨_, rfl⟩), ⟨rfl, by decide, by decide⟩,
    HaulBalanced_init _ rfl rfl, coils_init _ rfl rfl, breaks_init _ (by decide) rfl, ⟨nofun, nofun⟩,
    faults_init _ rfl rfl rfl, reset_sound _ powerUp_inRange rfl⟩

end Sys2Proof.Machine

/-! Resets, the HOLD-IN lines and the transmit starts (8.5, 9.4, 9.5, 11.6): the state after power-up, the RESET input,
and the arbiters of both ports by their branches (R164 to R167, R189). -/

namespace Sys2Proof.Machine

/-! ## The state after power-up (R203) -/

theorem getD_replicate_default {α : Type} {x : α} (n i : Nat) : (List.replicate n x).getD i x = x := by
  rw [List.getD_eq_getElem?_getD, List.getElem?_replicate]
  split <;> rfl

theorem Tables.powerUp_station (a : Nat) : Tables.powerUp.station a = StationRow.powerUp :=
  getD_replicate_default 128 a

theorem Tables.powerUp_product (slot : Slot) : Tables.powerUp.product slot = ProductRow.powerUp :=
  getD_replicate_default 8 slot.val

theorem Tables.powerUp_layRow (slot : Slot) (u : HeadUnit) : Tables.powerUp.layRow slot u = LayRow.powerUp :=
  getD_replicate_default 192 (slot.val * 24 + u.val)

theorem Tables.powerUp_meshRow (i : StepIndex) : Tables.powerUp.meshRow i = MeshRow.powerUp :=
  getD_replicate_default 64 i.val

/-- R185: CLAMP stands in the downstream entry of SETPT alone. -/
theorem Tables.powerUp_action (k : Nat) (toward : Port) (h : k < 16) :
    Tables.powerUp.action k toward = if k = 4 ∧ toward = .d then .clamp else .forward := by
  cases toward
  case u =>
    have all : ∀ k < 16, Tables.powerUp.action k .u = .forward := by decide
    rw [all k h, if_neg (fun e => Port.noConfusion e.2)]
  case d =>
    have all : ∀ k < 16, Tables.powerUp.action k .d = if k = 4 ∧ Port.d = .d then .clamp else .forward := by decide
    exact all k h

theorem State.reset_head (u : HeadUnit) : State.reset.head u = HeadRecord.cleared :=
  getD_replicate_default 24 u.val

/-- Settles O3: the tables row by row, every other field as `State.reset` writes it. -/
theorem resetValues : Obligations.ResetValues := by
  refine ⟨rfl, rfl, rfl, fun a _ => Tables.powerUp_station a, fun k toward h => Tables.powerUp_action k toward h,
    Tables.powerUp_product, Tables.powerUp_layRow, Tables.powerUp_meshRow, fun k => ?_, rfl, State.reset_head,
    rfl, rfl, rfl, rfl, rfl, rfl, rfl, rfl, rfl, fun p => ?_, rfl, rfl, rfl, rfl, rfl, rfl, rfl, rfl, rfl⟩
  · cases k <;> rfl
  · cases p <;> rfl

/-! ## The RESET input (R203) -/

/-- R203: while the RESET input is asserted a command but a reset, its release and the HOLD-IN levels does nothing. -/
theorem commandEffect_of_asserted {c : Instr} {s : State} (hr : s.resetIn = true) (hp : c ≠ .powerUp)
    (hq : c ≠ .pinReset) (hl : c ≠ .pinResetRelease) (ha : ∀ p, c ≠ .holdInAsserted p)
    (hh : ∀ p, c ≠ .holdInReleased p) : commandEffect c s = s := by
  cases c with
  | powerUp => exact absurd rfl hp
  | pinReset => exact absurd rfl hq
  | pinResetRelease => exact absurd rfl hl
  | holdInAsserted p => exact absurd rfl (ha p)
  | holdInReleased p => exact absurd rfl (hh p)
  | _ => exact whenWorking_of_asserted s _ hr

theorem setHoldIn_resetIn (p : Port) (level : Bool) (s : State) : (setHoldIn p level s).resetIn = s.resetIn := by
  simp

/-- Settles O4. -/
theorem resetsAndTheResetLine : Obligations.ResetsAndTheResetLine := by
  refine ⟨fun s => ⟨rfl, rfl, rfl⟩, fun c s hr hp hq hl ha hh => ?_, fun p s hr => ?_⟩
  · rw [exec_eq_next, commandEffect_of_asserted hr hp hq hl ha hh]
  · exact congrArg _ (whenWorking_of_asserted _ _ ((setHoldIn_resetIn p false s).trans hr))

/-! ## HOLD-IN (R149, R151) -/

theorem exec_holdInReleased (p : Port) {s : State} (hr : s.resetIn = false) :
    exec (.holdInReleased p) s = .next (transmitStarts p (setHoldIn p false s)) :=
  congrArg _ (whenWorking_of_released _ _ ((setHoldIn_resetIn p false s).trans hr))

/-- R149: no transmit start is taken while HOLD-IN is asserted or a frame is being sent. -/
theorem transmitStarts_of_not_idle {p : Port} {s : State}
    (h : (s.port p).holdIn = true ∨ (s.port p).transmitter.isSome = true) : transmitStarts p s = s := by
  unfold transmitStarts
  rw [if_pos]
  rcases h with h | h <;> simp [h]

theorem transmitStarts_u_of_idle {s : State} (ht : s.portU.transmitter = none) (hh : s.portU.holdIn = false) :
    transmitStarts .u s = arbiterU s := by
  simp [transmitStarts, State.port, ht, hh]

/-- R166, R189: an empty FQD has nothing to send. -/
theorem startFqd_nil {s : State} (h : s.store.fqd = []) : startFqd [] s = s := by
  simp only [startFqd, ← h]

/-- R166: with nothing to send on Port D nothing changes. -/
theorem arbiterD_of_nothing {s : State} (hl : s.store.latchPending = none) (hi : s.store.iqd = [])
    (hf : s.store.fqd = []) : arbiterD s = s := by
  rw [arbiterD_of_only_fqd hl hi, hf, startFqd_nil hf]

/-- R167: with nothing to send on Port U nothing changes. -/
theorem arbiterU_of_nothing {s : State} (hi : s.store.iqu = []) (hf : s.store.fqu = []) : arbiterU s = s := by
  simp [arbiterU, hi, hf]

/-- R149: a transmit start of a port that is offered no frame changes nothing. -/
theorem transmitStarts_of_nothing_d {s : State} (hl : s.store.latchPending = none) (hi : s.store.iqd = [])
    (hf : s.store.fqd = []) : transmitStarts .d s = s := by
  unfold transmitStarts
  split
  · rfl
  · exact arbiterD_of_nothing hl hi hf

theorem transmitStarts_of_nothing_u {s : State} (hi : s.store.iqu = []) (hf : s.store.fqu = []) :
    transmitStarts .u s = s := by
  unfold transmitStarts
  split
  · rfl
  · exact arbiterU_of_nothing hi hf

/-- Settles O5: the release is a transmit start once the level is released; the arbiter of an idle port is what takes
it. -/
theorem holdInGatesTransmitStarts : Obligations.HoldInGatesTransmitStarts := by
  intro p s released offered
  have resetIn : released.resetIn = s.resetIn := setHoldIn_resetIn p false s
  refine ⟨rfl, fun hr => ⟨?_, _, exec_holdInReleased p hr, ?_⟩, fun hr ht => ?_, fun hr hn => ?_, fun h => ?_⟩
  · rw [exec_holdInReleased p hr, exec_transmitStart p (resetIn.trans hr)]
    rfl
  · rw [transmitStarts_holdIn, setHoldIn, State.port_setPort]
  · rw [exec_holdInReleased p hr, transmitStarts_of_not_idle (.inr (by simpa [setHoldIn] using ht))]
    rfl
  · rw [exec_holdInReleased p hr]
    refine congrArg _ ?_
    cases p with
    | u =>
      obtain ⟨hi, hf⟩ : s.store.iqu = [] ∧ s.store.fqu = [] := by simpa [offered] using hn
      exact transmitStarts_of_nothing_u hi hf
    | d =>
      obtain ⟨hl, hi, hf⟩ : s.store.latchPending = none ∧ s.store.iqd = [] ∧ s.store.fqd = [] := by
        simpa [offered] using hn
      exact transmitStarts_of_nothing_d hl hi hf
  · rw [exec_eq_next, commandEffect, whenWorking, transmitStarts_of_not_idle h, ite_self]

/-! ## The kinds of a received code (R205) -/

/-- R205: a named kind is received by its own code alone. -/
theorem FrameKind.ofCode_eq_iff {k : FrameKind} (hk : k ≠ .other) (b : Byte) : FrameKind.ofCode b = k ↔ b = k.code := by
  constructor
  · rintro rfl
    revert hk
    revert b
    decide +kernel
  · rintro rfl
    cases k <;> rfl

/-! ## The arbiters by their branches (R164 to R167, R189) -/

/-- R164, R166: the pending speed command goes first. -/
theorem arbiterD_of_latch {s : State} {c : SpeedCommand} (hl : s.store.latchPending = some c) :
    arbiterD s = startLatch c s := by
  simp only [arbiterD, hl]

/-- R166: with no speed command pending IQD's oldest frame goes first. -/
theorem arbiterD_of_iqd {s : State} {e : InjFrame} {rest : List InjFrame} (hl : s.store.latchPending = none)
    (hi : s.store.iqd = e :: rest) :
    arbiterD s = startFrame .d e.frame (.injected e.mark) { s with store.iqd := rest } := by
  simp only [arbiterD, hl, hi]

/-- R167: IQU's oldest frame goes first. -/
theorem arbiterU_of_iqu {s : State} {e : InjFrame} {rest : List InjFrame} (hi : s.store.iqu = e :: rest) :
    arbiterU s = startFrame .u e.frame (.injected e.mark) { s with store.iqu := rest } := by
  simp only [arbiterU, hi]

/-- R167: with IQU empty FQU's oldest frame goes. -/
theorem arbiterU_of_fqu {s : State} {e : FwdFrame} {rest : List FwdFrame} (hi : s.store.iqu = [])
    (hf : s.store.fqu = e :: rest) :
    arbiterU s = startFrame .u e.frame .forwarded { s with store.fqu := rest } := by
  simp only [arbiterU, hi, hf]

/-- R166: FQD's oldest frame, no SETPT and not withdrawn, leaves as it is. -/
theorem startFqd_of_kept {e : FwdFrame} (rest : List FwdFrame) {s : State} (hk : e.frame.kind ≠ 5)
    (hw : s.withdraws e = false) : startFqd (e :: rest) s =
      startFrame .d e.frame .forwarded { s with store.fqd := rest } := by
  have plain : FrameKind.ofCode e.frame.kind ≠ .setpt := by
    rwa [Ne, FrameKind.ofCode_eq_iff (by decide)]
  simp [startFqd, hw, leaveFqd, plain]

/-- R189: a GO at the front of FQD in HALTED is withdrawn. -/
theorem startFqd_of_withdrawn {e : FwdFrame} (rest : List FwdFrame) {s : State} (hw : s.withdraws e = true) :
    startFqd (e :: rest) s = startFqd rest
      ({ s with store.fqd := rest }.countClassifier (fun c => { c with haltedGos := bump c.haltedGos })).setHoldOut := by
  rw [startFqd, if_pos hw]

theorem State.withdraws_iff (s : State) (e : FwdFrame) :
    s.withdraws e = true ↔ s.mode = .halted ∧ e.frame.kind = 8 := by
  simp [State.withdraws, FrameKind.ofCode_eq_iff (show FrameKind.go ≠ .other by decide), FrameKind.code]

/-- R166, R189: a transmit start of an idle Port D with a GO withdrawn is that of the state so left. -/
theorem transmitStarts_d_of_withdrawn {s : State} {e : FwdFrame} {rest : List FwdFrame}
    (ht : s.portD.transmitter = none) (hh : s.portD.holdIn = false) (hl : s.store.latchPending = none)
    (hi : s.store.iqd = []) (hf : s.store.fqd = e :: rest) (hw : s.withdraws e = true) :
    transmitStarts .d s = transmitStarts .d (({ s with store.fqd := rest }.countClassifier
      (fun c => { c with haltedGos := bump c.haltedGos })).setHoldOut) := by
  rw [transmitStarts_d_of_idle ht hh, arbiterD_of_only_fqd hl hi, hf, startFqd_of_withdrawn rest hw,
    transmitStarts_d_of_idle (by simpa using ht) (by simpa using hh),
    arbiterD_of_only_fqd (by simpa using hl) (by simpa using hi)]
  rfl

/-- Settles O48, by the branches of the two arbiters. -/
theorem transmitStarted : Obligations.TransmitStarted := by
  intro s hr sendD sendU
  simp only [exec_transmitStart _ hr]
  refine ⟨fun ht hh => ?_, fun ht hh => ?_⟩
  · have starts : transmitStarts .d s = arbiterD s := transmitStarts_d_of_idle ht hh
    refine ⟨fun c hl => ?_, fun e rest hl hi => ?_, fun e rest hl hi hf hk hm => ?_, fun e hl hi hf hm hk => ?_,
      fun e rest hl hi hf hm hk => ?_, fun hl hi hf => ?_⟩
    · rw [starts, arbiterD_of_latch hl]
      cases c <;> rfl
    · rw [starts, arbiterD_of_iqd hl hi]
      rfl
    · have kept : s.withdraws e = false := by
        rw [← Bool.not_eq_true, State.withdraws_iff]
        exact fun ⟨halted, go⟩ => hm.elim (· halted) (· go)
      rw [starts, arbiterD_of_only_fqd hl hi, hf, startFqd_of_kept rest hk kept]
      rfl
    · rw [starts, arbiterD_of_only_fqd hl hi, hf, startFqd_of_withdrawn [] ((s.withdraws_iff e).2 ⟨hm, hk⟩)]
      rfl
    · rw [exec_transmitStart .d (by simpa using hr),
        transmitStarts_d_of_withdrawn ht hh hl hi hf ((s.withdraws_iff e).2 ⟨hm, hk⟩)]
    · rw [starts, arbiterD_of_nothing hl hi hf]
  · have starts : transmitStarts .u s = arbiterU s := transmitStarts_u_of_idle ht hh
    refine ⟨fun e rest hi => ?_, fun e rest hi hf => ?_, fun hi hf => ?_⟩
    · rw [starts, arbiterU_of_iqu hi]
      rfl
    · rw [starts, arbiterU_of_fqu hi hf]
      rfl
    · rw [starts, arbiterU_of_nothing hi hf]

end Sys2Proof.Machine

/-! Characters, frames and requests as they are spelled (8.2, 8.3, 8.5, 12.1 to 12.3): the check, the numbers of a
payload, the characters of a frame and their reading back, and the codes of requests and enumerations. -/

namespace Sys2Proof.Machine

/-! ## The check (R141) -/

theorem BitVec.getLsbD_fifteen (reg : BitVec 16) : reg.getLsbD 15 = reg.msb := by
  rw [BitVec.msb_eq_getLsbD_last]

/-- R141: one bit is taken into the register by the shift, with 4,129 where it differs from the highest bit. -/
theorem checkBit_eq (reg : BitVec 16) (bit : Bool) :
    checkBit reg bit = if bit = reg.getLsbD 15 then reg <<< 1 else (reg <<< 1) ^^^ 4129#16 := by
  rw [BitVec.getLsbD_fifteen]
  by_cases h : bit = reg.msb <;> simp [checkBit, h]

/-- R141: the check of one more character. -/
theorem frameCheck_snoc (l : List Byte) (b : Byte) : frameCheck (l ++ [b]) = checkByte (frameCheck l) b := by
  simp [frameCheck]

/-! ## Numbers in payloads (R204) -/

theorem numberAt_one (before after : List Byte) (a : Byte) :
    numberAt (before ++ a :: after) (before.length + 1) 1 = a.toNat := by
  simp [numberAt, numberOf]

theorem numberAt_two (before after : List Byte) (a b : Byte) :
    numberAt (before ++ a :: b :: after) (before.length + 1) 2 = 256 * a.toNat + b.toNat := by
  simp [numberAt, numberOf, Nat.mul_comm]

theorem enc4_eq (n : Nat) : enc4 n = enc2 (n / 65536) ++ enc2 n := by
  simp [enc4, enc2, Nat.div_div_eq_div_mul]

theorem signedOf_two_eq (n : Nat) : signedOf 2 n = if n < 32768 then (n : Int) else (n : Int) - 65536 := rfl

theorem signedOf_four_eq (n : Nat) :
    signedOf 4 n = if n < 2147483648 then (n : Int) else (n : Int) - 4294967296 := rfl

/-- Settles O9. -/
theorem checkOfNineDigits : Obligations.CheckOfNineDigits := by
  unfold Obligations.CheckOfNineDigits
  intro shifted
  refine ⟨by decide +kernel, by decide, rfl, fun l b => ?_, fun b => ?_, fun n => ⟨rfl, rfl, enc4_eq n⟩,
    fun before after a b => ⟨numberAt_one before after a, numberAt_two before (after) a b⟩, fun n => ⟨?_, ?_⟩⟩
  · rw [frameCheck_snoc]
    simp only [checkByte, checkBit_eq, shifted]
  · simp only [onesOf, List.foldl_cons, List.foldl_nil, List.map_cons, List.map_nil, List.sum_cons, List.sum_nil]
    omega
  · exact signedOf_two_eq n
  · exact signedOf_four_eq n

/-! ## The characters of a frame (R140, R148) -/

theorem frameContents_length (f : Frame) : (frameContents f).length = 4 + f.payload.length := by
  simp [frameContents]
  omega

/-- R140: a frame's characters one after another. -/
theorem frameCharacters_eq (f : Frame) : frameCharacters f =
    f.dst.setWidth 8 :: f.src.setWidth 8 :: f.kind :: BitVec.ofNat 8 f.payload.length
      :: (f.payload ++ enc2 (frameCheck (frameContents f)).toNat) := by
  simp [frameCharacters, frameContents]

theorem frameCharacters_length (f : Frame) : (frameCharacters f).length = 6 + f.payload.length := by
  simp [frameCharacters_eq, enc2]
  omega

theorem frameCharacters_take (f : Frame) : (frameCharacters f).take (4 + f.payload.length) = frameContents f := by
  rw [frameCharacters, List.take_append_of_le_length (Nat.le_of_eq (frameContents_length f).symm), ← frameContents_length, List.take_length]

theorem frameCharacters_drop (f : Frame) : (frameCharacters f).drop (4 + f.payload.length) =
    enc2 (frameCheck (frameContents f)).toNat := by
  rw [frameCharacters, ← frameContents_length, List.drop_left]

/-- R140: the length character reads as the payload's length. -/
theorem length_character {f : Frame} (h : f.payload.length ≤ 32) :
    (BitVec.ofNat 8 f.payload.length).toNat = f.payload.length := by
  rw [BitVec.toNat_ofNat]
  omega

theorem setWidth_addr (a : Addr) : (a.setWidth 8).setWidth 7 = a := by
  rw [BitVec.setWidth_setWidth_of_le _ (by omega), BitVec.setWidth_eq]

/-- R140: the characters of a frame are read back as the frame. -/
theorem frameOf_frameCharacters {f : Frame} (h : f.payload.length ≤ 32) : frameOf (frameCharacters f) = f := by
  rw [frameCharacters_eq]
  simp only [frameOf, List.getD_cons_zero, List.getD_cons_succ, List.drop_succ_cons, List.drop_zero, length_character h,
    List.take_left, setWidth_addr]

theorem numberOf_enc2 (x : BitVec 16) : numberOf (enc2 x.toNat) = x.toNat := by
  have := x.isLt
  simp [numberOf, enc2]
  omega

/-- R146: the check of a frame's own characters matches. -/
theorem checkMatches_frameCharacters (f : Frame) : checkMatches (frameCharacters f) = true := by
  have contents : (frameCharacters f).length - 2 = 4 + f.payload.length := by
    rw [frameCharacters_length]
    omega
  rw [checkMatches_iff, contents, frameCharacters_take, frameCharacters_drop, numberOf_enc2]

/-- R145: the expected total of a frame's own characters is their number. -/
theorem expectedTotal_frameCharacters {f : Frame} (h : f.payload.length ≤ 32) :
    expectedTotal (frameCharacters f) = some (frameCharacters f).length := by
  rw [frameCharacters_length, frameCharacters_eq]
  simp only [expectedTotal, List.getElem?_cons_succ, List.getElem?_cons_zero, Option.map_some, length_character h]

/-- R148: one character as the shifter of a holding stage sends it. -/
def Holding.sends (h : Holding) (mark : Bool) (b : Byte) : LineChar :=
  { value := b, mark := mark, parity := h.parity && evenParity b mark, stop := true }

/-- R148: the first character is sent marked, the rest are not. -/
theorem Holding.lineChars_of_cons {h : Holding} {c : Byte} {rest : List Byte} (e : frameCharacters h.frame = c :: rest) :
    h.lineChars = h.sends true c :: rest.map (h.sends false) := by
  simp only [Holding.lineChars, e]
  rfl

/-- R138, R139: a sent character has its stop element and, with parity on, the even parity bit, and is no error under
the parity setting it was sent with. -/
theorem Holding.sends_sound (h : Holding) (mark : Bool) (b : Byte) :
    isCharError h.parity (h.sends mark b) = false ∧ (h.sends mark b).stop = true
      ∧ (h.parity = true →
          (onesOf (h.sends mark b).value + (h.sends mark b).mark.toNat + (h.sends mark b).parity.toNat) % 2 = 0) := by
  refine ⟨?_, rfl, fun hp => ?_⟩
  · cases hp : h.parity <;> simp [isCharError, Holding.sends, hp]
  · simp only [Holding.sends, hp, Bool.true_and, evenParity]
    rcases Nat.mod_two_eq_zero_or_one (onesOf b + mark.toNat) with e | e
    · simp [e]
    · simp only [e, beq_self_eq_true, Bool.toNat_true]
      omega

/-- Settles O8: the characters are written out one after another, and the receiver's rules read them back. -/
theorem frameCharactersReadBack : Obligations.FrameCharactersReadBack := by
  intro f h n sent check
  have hcheck : check = (frameCheck (frameContents f)).toNat :=
    congrArg (fun l => (frameCheck l).toNat) (frameCharacters_take f)
  have hsent : sent = f.dst.setWidth 8 :: f.src.setWidth 8 :: f.kind :: BitVec.ofNat 8 n
      :: (f.payload ++ enc2 check) := by
    rw [hcheck]
    exact frameCharacters_eq f
  refine ⟨by rw [hsent]; rfl, by rw [hsent]; rfl, by rw [hsent]; rfl, by rw [hsent]; rfl, fun i hi => ?_, ?_, ?_,
    frameOf_frameCharacters h, checkMatches_frameCharacters f, frameCharacters_length f,
    expectedTotal_frameCharacters h, ?_⟩
  · rw [hsent, Nat.add_comm 4 i]
    exact List.getElem?_append_left hi
  · rw [hsent, Nat.add_comm 4 n]
    exact (List.getElem?_append_right (Nat.le_refl n)).trans (by simp [n, enc2])
  · rw [hsent, show 5 + n = n + 1 + 4 by omega]
    exact (List.getElem?_append_right (Nat.le_succ n)).trans (by simp [n, enc2])
  · rintro k rfl
    have chars := k.lineChars_of_cons (frameCharacters_eq k.frame)
    refine ⟨?_, ?_, fun c hc => ?_⟩
    · rw [chars, frameCharacters_eq]
      simp [Holding.sends, Function.comp_def]
    · have unmarked : LineChar.mark ∘ k.sends false = fun _ => false := rfl
      rw [chars, List.map_cons, List.map_map, unmarked, List.map_const']
      refine congrArg (fun m => true :: List.replicate m false) ?_
      simp only [List.length_cons, List.length_append, enc2, List.length_nil, n]
      omega
    · rw [chars] at hc
      rcases List.mem_cons.1 hc with rfl | hc
      · exact k.sends_sound true _
      · obtain ⟨b, _, rfl⟩ := List.mem_map.1 hc
        exact k.sends_sound false b

/-! ## Requests and codes (R193, R204 to R206) -/

/-- R206: the fewest characters that follow the code of a request that has parameters. -/
def neededCharacters : List (Byte × Nat) :=
  [(1, 3), (2, 4), (3, 1), (4, 1), (5, 1), (8, 3), (10, 2), (11, 2), (12, 1), (15, 1), (17, 1)]

/-- R193: a payload shorter than the parameters of its code is no request. -/
theorem parse_short {code : Byte} {needed : Nat} {rest : List Byte} (hc : (code, needed) ∈ neededCharacters)
    (h : rest.length < needed) : parseRequest (code :: rest) = none := by
  simp only [neededCharacters, List.mem_cons, Prod.mk.injEq, List.not_mem_nil, or_false] at hc
  rcases rest with _ | ⟨a, _ | ⟨b, _ | ⟨c, _ | ⟨d, rest⟩⟩⟩⟩ <;> simp only [List.length_cons, List.length_nil] at h
  all_goals
    rcases hc with ⟨rfl, rfl⟩ | ⟨rfl, rfl⟩ | ⟨rfl, rfl⟩ | ⟨rfl, rfl⟩ | ⟨rfl, rfl⟩ | ⟨rfl, rfl⟩ | ⟨rfl, rfl⟩
      | ⟨rfl, rfl⟩ | ⟨rfl, rfl⟩ | ⟨rfl, rfl⟩ | ⟨rfl, rfl⟩
    all_goals first | rfl | omega

/-- R193, R206: a WRITE_FIELDS payload that names a field twice is no request. -/
theorem parse_twice {t : Byte} {row : BitVec 16} {ps : List (Byte × BitVec 32)} (extra : List Byte)
    (h5 : ps.length ≤ 5) (h : ¬(ps.map Prod.fst).Nodup) :
    parseRequest ((Request.writeFields t row ps).encode ++ extra) = none := by
  rw [parse_writeFields t row ps extra h5, if_neg (fun k => h k.2)]

/-- R207: a READ_ROW without its page character reads page 0. -/
theorem parse_readRow_unpaged (t : Byte) (row : BitVec 16) :
    parseRequest ([1, t] ++ enc2 row.toNat) = some (.readRow t row 0) :=
  congrArg (fun r => some (Request.readRow t r 0)) (ofNat_toNat16 row)

theorem Role.ofCode_eq_some_iff (n : Nat) (x : Role) : Role.ofCode n = some x ↔ n = x.code := by
  constructor
  · intro h
    unfold Role.ofCode at h
    split at h <;> cases h <;> rfl
  · rintro rfl
    cases x <;> rfl

theorem Action.ofCode_eq_some_iff (n : Nat) (x : Action) : Action.ofCode n = some x ↔ n = x.code := by
  constructor
  · intro h
    unfold Action.ofCode at h
    split at h <;> cases h <;> rfl
  · rintro rfl
    cases x <;> rfl

theorem FaultClass.ofCode_eq_some_iff (n : Nat) (x : FaultClass) : FaultClass.ofCode n = some x ↔ n = x.code := by
  constructor
  · intro h
    unfold FaultClass.ofCode at h
    split at h <;> cases h <;> rfl
  · rintro rfl
    cases x <;> rfl

theorem ProductKind.ofCode_eq_some_iff (n : Nat) (x : ProductKind) :
    ProductKind.ofCode n = some x ↔ n = x.code := by
  constructor
  · intro h
    unfold ProductKind.ofCode at h
    split at h <;> cases h <;> rfl
  · rintro rfl
    cases x <;> rfl

theorem Direction.ofCode_eq_some_iff (n : Nat) (x : Direction) : Direction.ofCode n = some x ↔ n = x.code := by
  constructor
  · intro h
    unfold Direction.ofCode at h
    split at h <;> cases h <;> rfl
  · rintro rfl
    cases x <;> rfl

theorem FaultKind.ofNumber_eq_some_iff (n : Nat) (x : FaultKind) : FaultKind.ofNumber n = some x ↔ n = x.number := by
  constructor
  · intro h
    unfold FaultKind.ofNumber at h
    split at h <;> cases h <;> rfl
  · rintro rfl
    cases x <;> rfl

theorem FrameKind.ofCode_of_unnamed {b : Byte} (h : b = 0 ∨ 18 < b.toNat) : FrameKind.ofCode b = .other := by
  revert b
  decide +kernel

theorem TableName.ofCode_of_unnamed {n : Nat} (h : n = 0 ∨ 7 < n) : TableName.ofCode n = none := by
  unfold TableName.ofCode
  split
  case h_8 => rfl
  all_goals omega

theorem TableName.hasRow_iff (row : Nat) :
    (TableName.line.hasRow row = true ↔ row = 0) ∧ (TableName.stations.hasRow row = true ↔ row < 128)
      ∧ (TableName.actions.hasRow row = true ↔ row < 32) ∧ (TableName.products.hasRow row = true ↔ row < 8)
      ∧ (TableName.lays.hasRow row = true ↔ row < 192) ∧ (TableName.mesh.hasRow row = true ↔ row < 64)
      ∧ (TableName.faults.hasRow row = true ↔ 1 ≤ row ∧ row ≤ 19) := by
  simp [TableName.hasRow]

/-- Settles O10: the reading back of requests and the refused payloads, then the codes constructor by constructor. -/
theorem requestReadBack : Obligations.RequestReadBack := by
  refine ⟨fun r => ?_, parse_encode_extra, parse_readRow_unpaged, rfl, rfl, rfl, fun code rest h => ?_,
    fun code needed rest hc h => parse_short hc h, fun t a b count rest h => ?_,
    fun t row ps extra h5 h => parse_twice extra h5 h, rfl, rfl, rfl, rfl, rfl, rfl, rfl, rfl, rfl, rfl,
    Role.ofCode_eq_some_iff, Action.ofCode_eq_some_iff, FaultClass.ofCode_eq_some_iff,
    ProductKind.ofCode_eq_some_iff, Direction.ofCode_eq_some_iff, rfl, FaultKind.ofNumber_eq_some_iff, fun x => ?_,
    rfl, fun b h => FrameKind.ofCode_of_unnamed h, rfl, rfl, rfl, fun n h => TableName.ofCode_of_unnamed h,
    TableName.hasRow_iff⟩
  · cases r <;> rfl
  · exact parse_unnamed code rest (h.imp_left fun e => by rw [e]; rfl)
  · exact parse_miscounted t a b count rest (h.imp_left fun e => by rw [e]; rfl)
  · cases x <;> decide

end Sys2Proof.Machine

/-! Arrivals (9.1, 9.3, 10.2, 10.3): the ARRIVAL command of a frame that finds a slot, by the stages of its
classification (R178 to R186), and the three statements about it. -/

namespace Sys2Proof.Machine

/-! ## The end of an arrival (R152, R158) -/

/-- R158: an arrival whose slot nothing took ends in the state it would be without the slot. -/
theorem endArrival_of_follows {s : State} (h : s.HoldOutFollows) :
    endArrival { s with store.arriving := true } = s := by
  have idle : { s.store with arriving := false } = s.store := by rw [← h.1]
  have back : ({ s with store := { s.store with arriving := false } } : State) = s := by rw [idle]
  exact (congrArg State.setHoldOut back).trans (setHoldOut_of_follows s h)

/-- R144, R153: the state an arrival is classified in: its frame counted, in the slot it was granted. -/
def State.arrived (s : State) (p : Port) : State := { s.frameCounted p with store.arriving := true }

theorem exec_arrival_of_takesFrames (p : Port) (f : Frame) {s : State} (h : s.TakesFrames) :
    exec (.arrival p f) s = .next (endArrival (classify p f (s.arrived p))) := by
  obtain ⟨⟨hr, -⟩, hf, -⟩ := h
  rw [exec_arrival_of_free p f hr hf]
  cases p <;> rfl

/-- R152: counts change no slot. -/
theorem frameCounted_follows (p : Port) {s : State} (h : s.HoldOutFollows) (g : ClassifierCounts → ClassifierCounts) :
    ((s.frameCounted p).countClassifier g).HoldOutFollows := by
  cases p <;> exact hof_of h (.of_view rfl) rfl rfl

/-- R190: an arrival that ends in a count of the classifier alone. -/
theorem endArrival_counted (p : Port) {s : State} (h : s.TakesFrames) (g : ClassifierCounts → ClassifierCounts) :
    endArrival ((s.arrived p).countClassifier g) = (s.frameCounted p).countClassifier g :=
  endArrival_of_follows (frameCounted_follows p h.2.2 g)

/-! ## Classification (R178, R179, R181) -/

theorem State.openMreq_iff (s : State) (p : Port) (f : Frame) : s.openMreq p f = true ↔
    (∀ a, (s.tables.station a).role ≠ .master) ∧ p = .u ∧ f.kind = 16 ∧ f.dst = s.ownAddress := by
  have kind : FrameKind.ofCode f.kind = .mreq ↔ f.kind = 16 := FrameKind.ofCode_eq_iff (by decide) f.kind
  simp only [State.openMreq, Bool.and_eq_true, Bool.not_eq_true', hasMaster_false_iff, decide_eq_true_eq, kind, and_assoc]

/-- R179: a frame from an UNUSED source. -/
theorem classify_of_unused {p : Port} {f : Frame} {s : State} (ho : ¬s.openMreq p f = true)
    (hr : (s.stationOf f.src).role = .unused) : classify p f s =
      s.countClassifier (fun c => { c with unknownSources := bump c.unknownSources }) := by
  simp only [classify, if_neg ho, if_pos hr]

/-- R179: a frame from the wrong side. -/
theorem classify_of_misplaced {p : Port} {f : Frame} {s : State} (ho : ¬s.openMreq p f = true)
    (hr : (s.stationOf f.src).role ≠ .unused) (hs : (s.stationOf f.src).side ≠ p) : classify p f s =
      raise .misplacedStation (some f.src.toNat) 1 0 s := by
  simp only [classify, if_neg ho, if_neg hr, if_pos hs]

/-- R179 to R186: a frame that passes the source check. -/
theorem classify_of_known {p : Port} {f : Frame} {s : State} (ho : ¬s.openMreq p f = true)
    (hr : (s.stationOf f.src).role ≠ .unused) (hs : (s.stationOf f.src).side = p) : classify p f s =
      classifyKnown p (s.stationOf f.src) f s := by
  simp only [classify, if_neg ho, if_neg hr, hs, ne_eq, not_true_eq_false, if_false]

/-! ## The tap (R183) -/

/-- R183: whether a frame of a kind is tapped from a role. -/
def isTapped (k : FrameKind) (r : Role) : Prop :=
  (k = .turns ∧ r = .head) ∨ (k = .haul ∧ r = .hauloff) ∨ (k = .rowdone ∧ r = .knotter)

theorem tap_of_not_tapped {row : StationRow} {f : Frame} (s : State)
    (h : ¬isTapped (FrameKind.ofCode f.kind) row.role) : tap row f s = s := by
  unfold tap
  split
  case h_1 hk hr => exact absurd (.inl ⟨hk, hr⟩) h
  case h_2 hk hr => exact absurd (.inr (.inl ⟨hk, hr⟩)) h
  case h_3 hk hr => exact absurd (.inr (.inr ⟨hk, hr⟩)) h
  case h_4 => rfl

theorem tap_turns {row : StationRow} {f : Frame} (s : State) (hk : FrameKind.ofCode f.kind = .turns)
    (hr : row.role = .head) : tap row f s = turnsReceived row.unit f.payload s := by
  simp only [tap, hk, hr]

theorem tap_haul {row : StationRow} {f : Frame} (s : State) (hk : FrameKind.ofCode f.kind = .haul)
    (hr : row.role = .hauloff) : tap row f s = haulReceived f.payload s := by
  simp only [tap, hk, hr]

theorem tap_rowdone {row : StationRow} {f : Frame} (s : State) (hk : FrameKind.ofCode f.kind = .rowdone)
    (hr : row.role = .knotter) : tap row f s = rowdoneReceived f.payload s := by
  simp only [tap, hk, hr]

/-- R183: the tap keeps what routing reads. -/
theorem tap_keeps_routing (row : StationRow) (f : Frame) (s : State) :
    (tap row f s).tables = s.tables ∧ (tap row f s).ownAddress = s.ownAddress := by
  simp

/-! ## The route (R184) -/

theorem State.route_broadcast (s : State) (p : Port) :
    s.route p 127 = some (match p with | .u => .d | .d => .u) := by
  cases p <;> rfl

theorem State.route_of_unused (p : Port) {s : State} {dst : Addr} (hd : dst ≠ 127)
    (hr : (s.stationOf dst).role = .unused) : s.route p dst = none := by
  simp only [State.route, if_neg hd, if_pos hr]

theorem State.route_of_mapped (p : Port) {s : State} {dst : Addr} (hd : dst ≠ 127)
    (hr : (s.stationOf dst).role ≠ .unused) : s.route p dst = some (s.stationOf dst).side := by
  simp only [State.route, if_neg hd, if_neg hr]

/-! ## Action and placing (R185, R186) -/

/-- R185, R186: the action a frame is recorded with: its entry of the action table, FORWARD for a kind without one. -/
def State.recordedAction (s : State) (toward : Port) (f : Frame) : Action :=
  match (FrameKind.ofCode f.kind).actionRow with
  | none => .forward
  | some row => s.tables.action row toward

/-- R186: a kind without an entry is placed as one whose entry is FORWARD, for it is neither SETPT nor GO. -/
theorem act_eq (toward : Port) (f : Frame) (s : State) :
    act toward f s = actByEntry toward (s.recordedAction toward f) f s := by
  cases h : (FrameKind.ofCode f.kind).actionRow with
  | none =>
    have hs : FrameKind.ofCode f.kind ≠ .setpt := fun k => by simp [k, FrameKind.actionRow] at h
    have hg : FrameKind.ofCode f.kind ≠ .go := fun k => by simp [k, FrameKind.actionRow] at h
    simp [act, State.recordedAction, h, actByEntry, hs, hg]
  | some row => simp only [act, State.recordedAction, h]

/-- R186: a SETPT too short for its setpoint. -/
def isShortSetpoint (toward : Port) (f : Frame) : Prop :=
  toward = .d ∧ FrameKind.ofCode f.kind = .setpt ∧ f.payload.length < 2

/-- R186: a GO that HALTED keeps back. -/
def State.keepsBack (s : State) (toward : Port) (f : Frame) : Prop :=
  toward = .d ∧ FrameKind.ofCode f.kind = .go ∧ s.mode = .halted

theorem actByEntry_of_block (toward : Port) (f : Frame) (s : State) : actByEntry toward .block f s =
    s.countClassifier (fun c => { c with blocked := bump c.blocked }) :=
  if_pos rfl

theorem actByEntry_of_short {toward : Port} {a : Action} {f : Frame} (s : State) (ha : a ≠ .block)
    (hs : isShortSetpoint toward f) : actByEntry toward a f s =
      s.countClassifier (fun c => { c with shortSetpoints := bump c.shortSetpoints }) :=
  (if_neg ha).trans (if_pos hs)

theorem actByEntry_of_kept_back {toward : Port} {a : Action} {f : Frame} {s : State} (ha : a ≠ .block)
    (hh : s.keepsBack toward f) : actByEntry toward a f s =
      s.countClassifier (fun c => { c with haltedGos := bump c.haltedGos }) := by
  have noSetpoint : ¬isShortSetpoint toward f := fun k => by cases hh.2.1.symm.trans k.2.1
  exact (if_neg ha).trans ((if_neg noSetpoint).trans (if_pos hh))

theorem actByEntry_of_placed {toward : Port} {a : Action} {f : Frame} {s : State} (ha : a ≠ .block)
    (hs : ¬isShortSetpoint toward f) (hh : ¬s.keepsBack toward f) : actByEntry toward a f s = place toward a f s :=
  (if_neg ha).trans ((if_neg hs).trans (if_neg hh))

/-- R186: what a forward queue keeps of a frame. -/
def State.forwardEntry (s : State) (toward : Port) (a : Action) (f : Frame) : FwdFrame :=
  { frame := f, action := a, destRole := s.recordedRole toward f }

theorem place_d_of_room {a : Action} {f : Frame} {s : State} (h : s.store.fqd.length < 16) :
    place .d a f s =
      { s with store.fqd := s.store.fqd ++ [s.forwardEntry .d a f], store.arriving := false } :=
  if_pos h

theorem place_u_of_room {a : Action} {f : Frame} {s : State} (h : s.store.fqu.length < 16) :
    place .u a f s =
      { s with store.fqu := s.store.fqu ++ [s.forwardEntry .u a f], store.arriving := false } :=
  if_pos h

theorem place_of_full {toward : Port} {a : Action} {f : Frame} {s : State}
    (h : toward = .d ∧ 16 ≤ s.store.fqd.length ∨ toward = .u ∧ 16 ≤ s.store.fqu.length) :
    place toward a f s = s.countClassifier (fun c => { c with queueDrops := bump c.queueDrops }) := by
  rcases h with ⟨rfl, h⟩ | ⟨rfl, h⟩
  · exact if_neg (by omega)
  · exact if_neg (by omega)

/-! ## Slots and entries (R157, R159) -/

theorem transmitterSlots_eq (h : Option Holding) : transmitterSlots h = match h with
    | none => 0
    | some h => if h.released = false ∧ (match h.origin with
        | .forwarded => true
        | .injected _ => false
        | .latch => false) = true then 1 else 0 := by
  rcases h with _ | ⟨f, o, q, r⟩
  · rfl
  · cases o <;> cases r <;> rfl

theorem transmitterEntries_eq (h : Option Holding) : transmitterEntries h = match h with
    | none => 0
    | some h => if h.released = false ∧ (match h.origin with
        | .injected _ => true
        | .forwarded => false
        | .latch => false) = true then 1 else 0 := by
  rcases h with _ | ⟨f, o, q, r⟩
  · rfl
  · cases o <;> cases r <;> rfl

theorem toList_length_eq {α : Type} (o : Option α) : o.toList.length = if o.isSome then 1 else 0 := by
  cases o <;> rfl

theorem toNat_eq_ite (b : Bool) : b.toNat = if b then 1 else 0 := by
  cases b <;> rfl

/-- Settles O11: what holds the slots and entries, then the arrival's classification by its source and destination. -/
theorem arrivalDropped : Obligations.ArrivalDropped := by
  refine ⟨fun s => ?_, fun p f s hr hf => ?_, fun p f s h hopen => ?_⟩
  · intro sends fills forwarded originated
    refine ⟨?_, ?_, ?_, rfl, rfl, rfl⟩
    · rw [State.freeForwarding, State.heldForwarding, transmitterSlots_eq, transmitterSlots_eq, toList_length_eq,
        toNat_eq_ite]
      have fill (r : Receiver) : r.slots = fills r := by cases r <;> rfl
      rw [fill, fill] <;> rfl
    · rw [State.iqdHeld, transmitterEntries_eq] <;> rfl
    · rw [State.iquHeld, transmitterEntries_eq, toNat_eq_ite] <;> rfl
  · rw [exec_eq_next, commandEffect, whenWorking_of_released s _ hr, withSlot, if_pos hf]
  · have notOpen : ¬(s.arrived p).openMreq p f = true := by
      rw [State.openMreq_iff]
      cases p <;> exact hopen
    have station (a : Addr) : (s.arrived p).stationOf a = s.stationOf a := by cases p <;> rfl
    rw [exec_arrival_of_takesFrames p f h]
    refine ⟨fun hu => ?_, fun hr hs => ?_, fun hr hs hown hk h127 hd => ?_⟩
    · rw [classify_of_unused notOpen (by rwa [station]), endArrival_counted p h]
    · rw [classify_of_misplaced notOpen (by rwa [station]) (by rwa [station])]
      have coil : (raise .misplacedStation (some f.src.toNat) 1 0 (s.arrived p)).coil = s.coil := by
        rw [raise_coil rfl]
        cases p <;> rfl
      have counters : (raise .misplacedStation (some f.src.toNat) 1 0 (s.arrived p)).faults.counters =
          s.faults.counters.modify 15 bump := by
        rw [raise_counters]
        cases p <;> rfl
      refine ⟨_, rfl, rfl, counters, ?_, ?_, ?_, coil, ?_, ?_, ?_, ?_, ?_⟩ <;> simp [State.arrived]
    · have notTapped : ¬isTapped (FrameKind.ofCode f.kind) (s.stationOf f.src).role := by
        obtain ⟨h1, h2, h3⟩ := hk _ rfl
        simp [isTapped, h1, h2, h3]
      have own : (s.arrived p).ownAddress = s.ownAddress := by cases p <;> rfl
      rw [classify_of_known notOpen (by rwa [station]) (by rwa [station]), station, classifyKnown,
        if_neg (by rwa [own]), tap_of_not_tapped _ notTapped, routeAndAct, State.route_of_unused p h127 (by rwa [station]),
        endArrival_counted p h]

theorem exec_turns (u : HeadUnit) (pl : List Byte) {s : State} (hr : s.resetIn = false) :
    exec (.turns u pl) s = .next (turnsReceived u pl s) :=
  congrArg _ (whenWorking_of_released s _ hr)

theorem exec_haul (pl : List Byte) {s : State} (hr : s.resetIn = false) :
    exec (.haul pl) s = .next (haulReceived pl s) :=
  congrArg _ (whenWorking_of_released s _ hr)

theorem exec_rowdone (pl : List Byte) {s : State} (hr : s.resetIn = false) :
    exec (.rowdone pl) s = .next (rowdoneReceived pl s) :=
  congrArg _ (whenWorking_of_released s _ hr)

/-- R183 to R186: an arrival for another station is the tap, the route and the action one after another. -/
theorem exec_arrival_forwarded {p : Port} {f : Frame} {s : State} (h : s.TakesFrames)
    (hr : (s.stationOf f.src).role ≠ .unused) (hs : (s.stationOf f.src).side = p) (hd : f.dst ≠ s.ownAddress) :
    exec (.arrival p f) s =
      .next (endArrival (routeAndAct p f (tap (s.stationOf f.src) f (s.arrived p)))) := by
  have station (a : Addr) : (s.arrived p).stationOf a = s.stationOf a := by cases p <;> rfl
  have own : (s.arrived p).ownAddress = s.ownAddress := by cases p <;> rfl
  have notOpen : ¬(s.arrived p).openMreq p f = true := fun ho =>
    hd ((((s.arrived p).openMreq_iff p f).1 ho).2.2.2.trans own)
  rw [exec_arrival_of_takesFrames p f h, classify_of_known notOpen (by rwa [station]) (by rwa [station]), station,
    classifyKnown, if_neg (by rwa [own])]

/-- Settles O12: the state the tap leaves is routed by the tables it kept, and the action stage goes by its branches. -/
theorem arrivalForwarded : Obligations.ArrivalForwarded := by
  intro p toward f s h hr hs hd htoward k from_ arrival counted ends known actionOf action entry short
  have haction : action = s.recordedAction toward f := by
    have read (row : Nat) : actionOf row = s.tables.action row toward := by cases toward <;> rfl
    simp only [action, read, State.recordedAction]
    cases hk : k <;> simp only [k] at hk <;> rw [hk] <;> rfl
  let t := tap from_ f counted
  have tables : t.tables = s.tables := (tap_keeps_routing from_ f counted).1.trans (by cases p <;> rfl)
  have station (a : Addr) : t.stationOf a = s.stationOf a := by rw [State.stationOf, tables]; rfl
  have arrives : arrival = .next (endArrival (routeAndAct p f t)) := exec_arrival_forwarded h hr hs hd
  have routed (hknown : known) : routeAndAct p f t = actByEntry toward action f t := by
    have route : t.route p f.dst = some toward := by
      by_cases h127 : f.dst = 127
      · rw [h127, State.route_broadcast, htoward, if_pos h127] <;> cases p <;> rfl
      · have mapped : (t.stationOf f.dst).role ≠ .unused := by
          rw [station]
          exact hknown.resolve_left h127
        rw [State.route_of_mapped p h127 mapped, station, htoward, if_neg h127]
    have recorded : t.recordedAction toward f = s.recordedAction toward f := by
      simp only [State.recordedAction, tables]
    rw [routeAndAct, route, haction, ← recorded]
    exact act_eq toward f t
  have resetIn : counted.resetIn = false := by simpa [counted] using h.1.1
  have hentry : entry = t.forwardEntry toward action f := by
    simp only [State.forwardEntry, State.recordedRole, station, entry, k]
  refine ⟨t, fun hk hrole => ?_, fun hk hrole => ?_, fun hk hrole => ?_, fun hn => ?_, fun hn => ?_, fun hk hb => ?_,
    fun hk hb hsh => ?_, fun hk hb hh => ?_, fun hk hb hsh hh => ⟨fun ht hq => ?_, fun ht hq => ?_, fun hq => ?_⟩⟩
  · rw [exec_turns _ _ resetIn]
    exact congrArg _ (tap_turns counted hk hrole).symm
  · rw [exec_haul _ resetIn]
    exact congrArg _ (tap_haul counted hk hrole).symm
  · rw [exec_rowdone _ resetIn]
    exact congrArg _ (tap_rowdone counted hk hrole).symm
  · exact tap_of_not_tapped counted hn
  · obtain ⟨h127, hu⟩ : f.dst ≠ 127 ∧ (s.stationOf f.dst).role = .unused := by simpa [known] using hn
    rw [arrives, routeAndAct, State.route_of_unused p h127 (by rwa [station])]
    rfl
  · rw [arrives, routed hk, hb, actByEntry_of_block]
    rfl
  · rw [arrives, routed hk, actByEntry_of_short t hb hsh]
    rfl
  · rw [arrives, routed hk, actByEntry_of_kept_back hb hh]
    rfl
  · subst ht
    rw [arrives, routed hk, actByEntry_of_placed hb hsh hh, place_d_of_room hq, hentry]
    rfl
  · subst ht
    rw [arrives, routed hk, actByEntry_of_placed hb hsh hh, place_u_of_room hq, hentry]
    rfl
  · rw [arrives, routed hk, actByEntry_of_placed hb hsh hh, place_of_full hq]
    rfl

/-! ## Frames for the LK36 (R180 to R182) -/

/-- R180: a frame for the LK36 from a known source, no MREQ of an open map. -/
theorem exec_arrival_own {p : Port} {f : Frame} {s : State} (h : s.TakesFrames)
    (hr : (s.stationOf f.src).role ≠ .unused) (hs : (s.stationOf f.src).side = p) (hd : f.dst = s.ownAddress)
    (ho : ¬s.openMreq p f = true) :
    exec (.arrival p f) s = .next (endArrival (forOwn p (s.stationOf f.src).role f (s.arrived p))) := by
  have station (a : Addr) : (s.arrived p).stationOf a = s.stationOf a := by cases p <;> rfl
  have own : (s.arrived p).ownAddress = s.ownAddress := by cases p <;> rfl
  have notOpen : ¬(s.arrived p).openMreq p f = true := by cases p <;> exact ho
  rw [exec_arrival_of_takesFrames p f h, classify_of_known notOpen (by rwa [station]) (by rwa [station]), station,
    classifyKnown, if_pos (by rwa [own])]

/-- R159: the slot of an arrival is no injection entry. -/
theorem nackUnsupportedFrame_in_slot (p : Port) (f : Frame) (s : State) :
    nackUnsupportedFrame p f { s with store.arriving := true } =
      { nackUnsupportedFrame p f s with store.arriving := true } := by
  have room : ({ s with store.arriving := true } : State).injectionRoom p = s.injectionRoom p := by
    cases p <;> rfl
  unfold nackUnsupportedFrame
  rw [room]
  split
  · cases p <;> rfl
  · rfl

/-- R182: an unsupported frame is counted, and its NACK queued toward its port or counted as not sent. -/
theorem endArrival_refuseFrame (p : Port) (f : Frame) {s : State} (h : s.TakesFrames) :
    endArrival (refuseFrame p f (s.arrived p)) =
      nackUnsupportedFrame p f (countUnsupported (s.frameCounted p)) := by
  have grows : StoreGrows (countUnsupported (s.frameCounted p))
      (nackUnsupportedFrame p f (countUnsupported (s.frameCounted p))) := by
    unfold nackUnsupportedFrame
    split
    · exact queueToward_grows _ _ _ ‹_›
    · exact .of_view rfl
  have follows : (nackUnsupportedFrame p f (countUnsupported (s.frameCounted p))).HoldOutFollows :=
    hof_of (frameCounted_follows p h.2.2 _) grows (by simp) (by simp)
  have inSlot : refuseFrame p f (s.arrived p) =
      { nackUnsupportedFrame p f (countUnsupported (s.frameCounted p)) with store.arriving := true } :=
    nackUnsupportedFrame_in_slot p f (countUnsupported (s.frameCounted p))
  rw [inSlot, endArrival_of_follows follows]

/-- R180: the kinds a station may send to the LK36, and those counted without an answer. -/
def FrameKind.isOwnKind : FrameKind → Bool
  | .mreq | .cutdone | .take | .packed | .nack | .mrep | .alarm => true
  | _ => false

/-- R180: a frame of any other kind is refused. -/
theorem forOwn_of_other_kind {p : Port} {role : Role} {f : Frame} {s : State}
    (h : (FrameKind.ofCode f.kind).isOwnKind = false) : forOwn p role f s = refuseFrame p f s := by
  unfold forOwn
  split <;> first | rfl | simp_all [FrameKind.isOwnKind]

theorem forOwn_cutdone {p : Port} {f : Frame} (role : Role) (s : State) (hk : FrameKind.ofCode f.kind = .cutdone) :
    forOwn p role f s =
      if role = .cutter then cutdoneReceived f.payload (countConsumed s) else refuseFrame p f s := by
  simp only [forOwn, hk]

theorem forOwn_take {p : Port} {f : Frame} (role : Role) (s : State) (hk : FrameKind.ofCode f.kind = .take) :
    forOwn p role f s = if role = .packer then takeReceived (countConsumed s) else refuseFrame p f s := by
  simp only [forOwn, hk]

theorem forOwn_packed {p : Port} {f : Frame} (role : Role) (s : State) (hk : FrameKind.ofCode f.kind = .packed) :
    forOwn p role f s =
      if role = .packer then packedReceived f.src f.payload (countConsumed s) else refuseFrame p f s := by
  simp only [forOwn, hk]

theorem forOwn_mreq {p : Port} {f : Frame} (role : Role) (s : State) (hk : FrameKind.ofCode f.kind = .mreq) :
    forOwn p role f s = if role = .master then handMreq f (countConsumed s)
      else raise .foreignMgmt (some f.src.toNat) 1 0 s := by
  simp only [forOwn, hk, ownMreq]

theorem forOwn_unanswered {p : Port} {f : Frame} (role : Role) (s : State) (hk : FrameKind.ofCode f.kind = .nack ∨
    FrameKind.ofCode f.kind = .mrep ∨ FrameKind.ofCode f.kind = .alarm) : forOwn p role f s = countUnsupported s := by
  rcases hk with hk | hk | hk <;> simp only [forOwn, hk]

theorem exec_cutdone (pl : List Byte) {s : State} (hr : s.resetIn = false) :
    exec (.cutdone pl) s = .next (cutdoneReceived pl s) :=
  congrArg _ (whenWorking_of_released s _ hr)

theorem exec_packed (src : Addr) (pl : List Byte) {s : State} (hr : s.resetIn = false) :
    exec (.packed src pl) s = .next (packedReceived src pl s) :=
  congrArg _ (whenWorking_of_released s _ hr)

/-- An MREQ for the LK36 is the frame the MREQ command names. -/
theorem mreqFrame_of_own {f : Frame} {s : State} (hk : f.kind = 16) (hd : f.dst = s.ownAddress) :
    mreqFrame s f.src f.payload = f := by
  rw [mreqFrame, ← hd]
  cases f
  cases hk
  rfl

theorem nackUnsupportedFrame_of_room {p : Port} {f : Frame} {s : State} (h : s.injectionRoom p = true) :
    nackUnsupportedFrame p f s = s.queueToward p (s.originate f.src .nack [f.kind, 1]) :=
  if_pos h

theorem nackUnsupportedFrame_of_full {p : Port} {f : Frame} {s : State} (h : s.injectionRoom p = false) :
    nackUnsupportedFrame p f s = s.countClassifier
      (fun c => { c with unsupportedNacksNotSent := bump c.unsupportedNacksNotSent }) :=
  if_neg (by simp [h])

/-- Settles O13, by the kind of the frame and the role of its source. -/
theorem unsupportedFrameAnswered : Obligations.UnsupportedFrameAnswered := by
  refine ⟨fun f m s => ⟨rfl, rfl⟩, fun f s h hm hk hd => ?_, fun p f s h hr hs hd => ?_⟩
  · have opens : (s.arrived .u).openMreq .u f = true := ((s.arrived .u).openMreq_iff .u f).2 ⟨hm, rfl, hk, hd⟩
    rw [exec_mreq_of_takesFrames .u f.src f.payload h, mreqFrame_of_own hk hd, exec_arrival_of_takesFrames .u f h,
      classify, if_pos opens]
    rfl
  · intro k role arrival nack counted consumed ends refused
    have kind : k = .mreq ↔ f.kind = 16 := FrameKind.ofCode_eq_iff (by decide) f.kind
    have arrives (ho : ¬s.openMreq p f = true) : arrival = .next (endArrival (forOwn p role f (s.arrived p))) :=
      exec_arrival_own h hr hs hd ho
    have notOpen (hk : k ≠ .mreq) : ¬s.openMreq p f = true := fun ho =>
      hk (kind.2 ((s.openMreq_iff p f).1 ho).2.2.1)
    have resetIn : consumed.resetIn = false := by simpa [consumed] using h.1.1
    have refuses (hk : k ≠ .mreq) (hf : forOwn p role f (s.arrived p) = refuseFrame p f (s.arrived p)) : refused := by
      have answer : arrival = .next (nackUnsupportedFrame p f counted) := by
        rw [arrives (notOpen hk), hf, endArrival_refuseFrame p f h]
        rfl
      have room : counted.injectionRoom p = s.injectionRoom p := by cases p <;> rfl
      refine ⟨?_, ?_, fun hfull => ?_⟩
      · rintro rfl hi
        rw [answer, nackUnsupportedFrame_of_room (room.trans (decide_eq_true hi))]
        rfl
      · rintro rfl hi
        rw [answer, nackUnsupportedFrame_of_room (room.trans (decide_eq_true hi))]
        rfl
      · rw [answer, nackUnsupportedFrame_of_full (room.trans ?_)]
        rcases hfull with ⟨rfl, hi⟩ | ⟨rfl, hi⟩
        · exact decide_eq_false (by omega)
        · exact decide_eq_false (by omega)
    refine ⟨fun h1 h2 h3 h4 h5 h6 h7 => ?_, fun hk hrole => ?_, fun hk hrole => ?_, fun hk => ?_, fun hk hrole => ?_,
      fun hk hrole => ?_, fun hk hrole => ?_, fun hk hrole => ?_, fun hk hrole ho => ?_⟩
    · refine refuses h1 (forOwn_of_other_kind ?_)
      change k.isOwnKind = false
      cases hk : k <;> first | rfl | exact absurd hk ‹_›
    · exact refuses (by rw [hk]; decide) ((forOwn_cutdone role _ hk).trans (if_neg hrole))
    · rcases hk with hk | hk
      · exact refuses (by rw [hk]; decide) ((forOwn_take role _ hk).trans (if_neg hrole))
      · exact refuses (by rw [hk]; decide) ((forOwn_packed role _ hk).trans (if_neg hrole))
    · rw [arrives (notOpen (by rcases hk with hk | hk | hk <;> rw [hk] <;> decide)), forOwn_unanswered role _ hk]
      exact congrArg _ (endArrival_counted p h _)
    · exact ⟨_, exec_cutdone f.payload resetIn, by
        rw [arrives (notOpen (by rw [hk]; decide)), forOwn_cutdone role _ hk, if_pos hrole]; rfl⟩
    · exact ⟨_, exec_take f.payload resetIn, by
        rw [arrives (notOpen (by rw [hk]; decide)), forOwn_take role _ hk, if_pos hrole]; rfl⟩
    · exact ⟨_, exec_packed f.src f.payload resetIn, by
        rw [arrives (notOpen (by rw [hk]; decide)), forOwn_packed role _ hk, if_pos hrole]; rfl⟩
    · have closed : ¬s.openMreq p f = true := fun ho => ((s.openMreq_iff p f).1 ho).1 f.src.toNat hrole
      rw [arrives closed, forOwn_mreq role _ hk, if_pos hrole, exec_mreq_of_takesFrames p f.src f.payload h,
        mreqFrame_of_own (kind.1 hk) hd]
      rfl
    · have closed : ¬s.openMreq p f = true := fun hopen => by
        obtain ⟨none_, hp, -⟩ := (s.openMreq_iff p f).1 hopen
        rcases ho with ⟨a, ha⟩ | rfl
        · exact none_ a ha
        · cases hp
      rw [arrives closed, forOwn_mreq role _ hk, if_neg hrole]
      rfl

end Sys2Proof.Machine

/-! The lay monitor, the length tally and the time base (2.2 to 2.5, 3.2, 3.3, 4.2): TURNS reports by their branches,
HAUL reports as far as the three length counters, the underflows, and the statements about them. -/

namespace Sys2Proof.Machine

/-! ## Reports not taken (R41, R42, R64, R65, R67) -/

theorem Mode.supervises_iff (m : Mode) : m.supervises = true ↔ m = .threading ∨ m = .run ∨ m = .creep := by
  cases m <;> simp [Mode.supervises]

theorem Mode.supervises_eq_false_iff (m : Mode) : m.supervises = false ↔ m = .parked ∨ m = .halted := by
  cases m <;> simp [Mode.supervises]

theorem turnsRejected_iff (pl : List Byte) : turnsRejected pl = true ↔
    pl.length < 5 ∨ 1023 < numberAt pl 3 2 ∨ 8 < numberAt pl 5 1 := by
  simp [turnsRejected, or_assoc]

theorem State.takesTurns_iff (s : State) (u : HeadUnit) : s.takesTurns u = true ↔
    s.mode.supervises = true ∧ (s.layRow u).inUse = true ∧ (s.head u).state ≠ .broken := by
  simp [State.takesTurns, and_assoc]

theorem turnsReceived_of_rejected {pl : List Byte} (u : HeadUnit) (s : State) (h : turnsRejected pl = true) :
    turnsReceived u pl s = { s with lay.rejectedTurns := bump s.lay.rejectedTurns } :=
  if_pos h

theorem turnsReceived_of_ignored {u : HeadUnit} {pl : List Byte} {s : State} (h : ¬turnsRejected pl = true)
    (ht : ¬s.takesTurns u = true) : turnsReceived u pl s = { s with lay.ignoredTurns := bump s.lay.ignoredTurns } :=
  (if_neg h).trans (if_neg ht)

theorem turnsReceived_of_taken {u : HeadUnit} {pl : List Byte} {s : State} (h : ¬turnsRejected pl = true)
    (ht : s.takesTurns u = true) : turnsReceived u pl s =
      takeTurns u (signedOf 2 (numberAt pl 1 2)) (numberAt pl 3 2) (numberAt pl 5 1) s :=
  (if_neg h).trans (if_pos ht)

theorem rowdoneRejected_iff (pl : List Byte) : rowdoneRejected pl = true ↔
    pl.length < 3 ∨ pl.length < 3 + 2 * min (numberAt pl 3 1) 14 := by
  rw [rowdoneRejected, Bool.or_eq_true, decide_eq_true_eq, decide_eq_true_eq]
  rfl

theorem State.processesRows_iff (s : State) : s.processesRows = true ↔
    s.mode.supervises = true ∧ s.mesh.active = true := by
  simp [State.processesRows]

theorem rowdoneReceived_of_rejected {pl : List Byte} (s : State) (h : rowdoneRejected pl = true) :
    rowdoneReceived pl s = { s with mesh.counts.rejectedRowdone := bump s.mesh.counts.rejectedRowdone } :=
  if_pos h

theorem rowdoneReceived_of_ignored {pl : List Byte} {s : State} (h : ¬rowdoneRejected pl = true)
    (hp : ¬s.processesRows = true) :
    rowdoneReceived pl s = { s with mesh.counts.ignoredRows := bump s.mesh.counts.ignoredRows } :=
  (if_neg h).trans (if_neg hp)

theorem rowdoneReceived_of_processed {pl : List Byte} {s : State} (h : ¬rowdoneRejected pl = true)
    (hp : s.processesRows = true) : rowdoneReceived pl s =
      rowReported (numberAt pl 1 2) (numberAt pl 3 1) (listedPositions pl) s :=
  (if_neg h).trans (if_pos hp)

theorem rowReported_of_duplicate {row : Nat} (missing : Nat) (listed : List Nat) {s : State}
    (h : 256 ≤ rowDistance s.mesh.cursor.expected row) : rowReported row missing listed s =
      { s with mesh.counts.duplicateRows := bump s.mesh.counts.duplicateRows } :=
  if_pos h

/-- Settles O14, by the branches of the two reports before they are taken. -/
theorem reportsNotTaken : Obligations.ReportsNotTaken := by
  refine ⟨fun u pl s hr => ?_, fun pl s hr => ?_⟩
  · intro rejected ignored
    rw [exec_turns u pl hr]
    refine ⟨fun h => ?_, fun h hi => ?_⟩
    · rw [turnsReceived_of_rejected u s ((turnsRejected_iff pl).2 h)]
    · have notTaken : ¬s.takesTurns u = true := by
        rw [State.takesTurns_iff, Mode.supervises_iff]
        rintro ⟨hm, hu, hb⟩
        rcases hi with hi | hi | hi | hi
        · simp [hi] at hm
        · simp [hi] at hm
        · simp [hi] at hu
        · exact hb hi
      rw [turnsReceived_of_ignored (mt (turnsRejected_iff pl).1 h) notTaken]
  · intro k rejected ignored
    rw [exec_rowdone pl hr]
    have processed : ¬ignored → s.processesRows = true := by
      intro hi
      have hs : ¬s.mode.supervises = false := fun e =>
        hi (((s.mode.supervises_eq_false_iff).1 e).imp_right .inl)
      have ha : ¬s.mesh.active = false := fun e => hi (.inr (.inr e))
      exact (s.processesRows_iff).2 ⟨by simpa using hs, by simpa using ha⟩
    refine ⟨fun h => ?_, fun h hi => ?_, fun e h hi he _ hd => ?_⟩
    · rw [rowdoneReceived_of_rejected s ((rowdoneRejected_iff pl).2 h)]
    · have notProcessed : ¬s.processesRows = true := by
        rw [State.processesRows_iff, Mode.supervises_iff]
        rintro ⟨hm, ha⟩
        rcases hi with hi | hi | hi
        · simp [hi] at hm
        · simp [hi] at hm
        · simp [hi] at ha
      rw [rowdoneReceived_of_ignored (mt (rowdoneRejected_iff pl).1 h) notProcessed]
    · rw [rowdoneReceived_of_processed (mt (rowdoneRejected_iff pl).1 h) (processed hi), rowReported_of_duplicate]
      rwa [he]

/-! ## A TURNS report taken (R43 to R45) -/

theorem HeadRecord.afterReport_of_few {h : HeadRecord} {p : ProductRow} (twist : Int) (tension : Nat) {strands : Nat}
    (hs : strands < p.strandCount) : h.afterReport p twist tension strands =
      { h.accumulate twist tension strands with state := .broken } :=
  if_pos hs

theorem HeadRecord.afterReport_of_firm {h : HeadRecord} {p : ProductRow} (twist : Int) {tension strands : Nat}
    (hs : p.strandCount ≤ strands) (ht : p.tensionFloor ≤ tension) : h.afterReport p twist tension strands =
      { h.accumulate twist tension strands with lowRun := 0 } :=
  (if_neg (Nat.not_lt.2 hs)).trans (if_neg (Nat.not_lt.2 ht))

theorem HeadRecord.afterReport_of_slack {h : HeadRecord} {p : ProductRow} (twist : Int) {tension strands : Nat}
    (hs : p.strandCount ≤ strands) (ht : tension < p.tensionFloor) (hf : h.lowRun + 1 < p.breakFilter) :
    h.afterReport p twist tension strands =
      { h.accumulate twist tension strands with lowRun := h.lowRun + 1 } :=
  (if_neg (Nat.not_lt.2 hs)).trans ((if_pos ht).trans (if_neg (Nat.not_le.2 hf)))

theorem HeadRecord.afterReport_of_filtered {h : HeadRecord} {p : ProductRow} (twist : Int) {tension strands : Nat}
    (hs : p.strandCount ≤ strands) (ht : tension < p.tensionFloor) (hf : p.breakFilter ≤ h.lowRun + 1) :
    h.afterReport p twist tension strands =
      { h.accumulate twist tension strands with lowRun := h.lowRun + 1, state := .broken } :=
  (if_neg (Nat.not_lt.2 hs)).trans ((if_pos ht).trans (if_pos hf))

/-- R45: a report that breaks the head. -/
theorem takeTurns_of_broken {u : HeadUnit} {twist : Int} {tension strands : Nat} {s : State} {x : HeadRecord}
    (e : (s.head u).afterReport s.product twist tension strands = x) (hx : x.state = .broken) :
    takeTurns u twist tension strands s = raise .strandBreak (some u.val) 1 0 (setHead u x s) := by
  subst e
  exact if_pos hx

/-- R43: a report after which the head goes on. -/
theorem takeTurns_of_whole {u : HeadUnit} {twist : Int} {tension strands : Nat} {s : State} {x : HeadRecord}
    (e : (s.head u).afterReport s.product twist tension strands = x) (hx : x.state ≠ .broken) :
    takeTurns u twist tension strands s = setHead u x s := by
  subst e
  exact if_neg hx

/-- R13, R124: an occurrence of class HALT halts a line that is not PARKED. -/
theorem raise_mode_of_halt {k : FaultKind} {s : State} (src : Option Nat) (count extent : Nat)
    (hc : s.tables.faultClass k = .halt) (hm : s.mode ≠ .parked) : (raise k src count extent s).mode = .halted := by
  have hmode := handle_mode (occurrence s k src count extent) s
  rw [show (occurrence s k src count extent).kind = k from rfl, hc] at hmode
  exact hmode.trans (if_neg hm)

/-- Settles O15, by the branches of a taken report. -/
theorem turnsTaken : Obligations.TurnsTaken := by
  intro u pl s hr hl ht hstr hm hu hb h tension strands sum taken become broke
  have notRejected : ¬turnsRejected pl = true := by
    rw [turnsRejected_iff]
    omega
  have runs : exec (.turns u pl) s = .next (takeTurns u (signedOf 2 (numberAt pl 1 2)) tension strands s) := by
    rw [exec_turns u pl hr, turnsReceived_of_taken notRejected
      ((s.takesTurns_iff u).2 ⟨(s.mode.supervises_iff).2 hm, hu, hb⟩)]
  have notParked : s.mode ≠ .parked := by
    rintro e
    simp [e] at hm
  have breaks (x : HeadRecord) (hx : x.state = .broken)
      (e : h.afterReport s.product (signedOf 2 (numberAt pl 1 2)) tension strands = x) : broke x :=
    ⟨by rw [runs, takeTurns_of_broken e hx]; rfl, fun hc => raise_mode_of_halt _ _ _ hc notParked⟩
  have goesOn (x : HeadRecord) (hx : x.state = h.state)
      (e : h.afterReport s.product (signedOf 2 (numberAt pl 1 2)) tension strands = x) :
      exec (.turns u pl) s = .next (become x) := by
    rw [runs, takeTurns_of_whole e (by rw [hx]; exact hb)]
    rfl
  exact ⟨fun hs => breaks _ rfl (HeadRecord.afterReport_of_few _ _ hs),
    fun hs hf => goesOn _ rfl (HeadRecord.afterReport_of_firm _ hs hf),
    fun hs hf hn => goesOn _ rfl (HeadRecord.afterReport_of_slack _ hs hf hn),
    fun hs hf hn => breaks _ rfl (HeadRecord.afterReport_of_filtered _ hs hf hn)⟩

/-! ## The length counters given an amount (R25 to R29) -/

theorem underflowsAt_iff (running : Bool) (current n : Nat) :
    underflowsAt running current n = true ↔ running = true ∧ current ≤ n := by
  simp [underflowsAt]

theorem exec_coilUnderflow {n : Nat} {s : State} (hr : s.resetIn = false) (hc : s.tally.coil.running = true)
    (hn : s.tally.coil.current ≤ n) : exec (.coilUnderflow n) s = .next (giveCoil n s) := by
  rw [exec_eq_next, commandEffect, whenWorking_of_released _ _ hr, if_pos ((underflowsAt_iff ..).2 ⟨hc, hn⟩)]

theorem exec_markUnderflow {n : Nat} {s : State} (hr : s.resetIn = false) (hc : s.tally.mark.running = true)
    (hn : s.tally.mark.current ≤ n) : exec (.markUnderflow n) s = .next (giveMark n s) := by
  rw [exec_eq_next, commandEffect, whenWorking_of_released _ _ hr, if_pos ((underflowsAt_iff ..).2 ⟨hc, hn⟩)]

theorem exec_windowEnd {n : Nat} {s : State} (hr : s.resetIn = false) (hc : s.tally.window.running = true)
    (hn : s.tally.window.current ≤ n) : exec (.windowEnd n) s = .next (giveWindow n s) := by
  rw [exec_eq_next, commandEffect, whenWorking_of_released _ _ hr, if_pos ((underflowsAt_iff ..).2 ⟨hc, hn⟩)]

theorem giveCoil_of_underflow {n : Nat} {s : State} (hc : s.tally.coil.running = true)
    (hn : s.tally.coil.current ≤ n) : giveCoil n s = coilUnderflowed (n - s.tally.coil.current)
      { s with tally.coil := s.tally.coil.underflow (n - s.tally.coil.current) } :=
  if_pos ((underflowsAt_iff ..).2 ⟨hc, hn⟩)

theorem giveCoil_of_running {n : Nat} {s : State} (hc : s.tally.coil.running = true) (hn : n < s.tally.coil.current) :
    giveCoil n s = { s with tally.coil.current := s.tally.coil.current - n } :=
  (if_neg (by rw [underflowsAt_iff]; omega)).trans (if_pos hc)

theorem giveCoil_of_stopped (n : Nat) {s : State} (hc : s.tally.coil.running = false) : giveCoil n s = s :=
  (if_neg (by simp [underflowsAt, hc])).trans (if_neg (by simp [hc]))

theorem giveMark_of_underflow {n : Nat} {s : State} (hc : s.tally.mark.running = true)
    (hn : s.tally.mark.current ≤ n) : giveMark n s =
      markUnderflowed (markLength s.coil.openCoil.length s.tally.mark (n - s.tally.mark.current))
        ((n - s.tally.mark.current) / s.tally.mark.preset)
        { s with tally.mark := s.tally.mark.reload (n - s.tally.mark.current) } :=
  if_pos ((underflowsAt_iff ..).2 ⟨hc, hn⟩)

theorem giveMark_of_running {n : Nat} {s : State} (hc : s.tally.mark.running = true) (hn : n < s.tally.mark.current) :
    giveMark n s = { s with tally.mark.current := s.tally.mark.current - n } :=
  (if_neg (by rw [underflowsAt_iff]; omega)).trans (if_pos hc)

theorem giveMark_of_stopped (n : Nat) {s : State} (hc : s.tally.mark.running = false) : giveMark n s = s :=
  (if_neg (by simp [underflowsAt, hc])).trans (if_neg (by simp [hc]))

theorem giveWindow_of_underflow {n : Nat} {s : State} (hc : s.tally.window.running = true)
    (hn : s.tally.window.current ≤ n) : giveWindow n s = windowEnded (s.tally.windowLength + n)
      { s with
        tally.window := s.tally.window.reload (n - s.tally.window.current)
        tally.windowLength := 0 } :=
  if_pos ((underflowsAt_iff ..).2 ⟨hc, hn⟩)

theorem giveWindow_of_running {n : Nat} {s : State} (hc : s.tally.window.running = true)
    (hn : n < s.tally.window.current) : giveWindow n s =
      { s with
        tally.window.current := s.tally.window.current - n
        tally.windowLength := s.tally.windowLength + n } :=
  (if_neg (by rw [underflowsAt_iff]; omega)).trans (if_pos hc)

theorem giveWindow_of_stopped (n : Nat) {s : State} (hc : s.tally.window.running = false) : giveWindow n s = s :=
  (if_neg (by simp [underflowsAt, hc])).trans (if_neg (by simp [hc]))

/-- R25: a length counter's current value after an amount that makes no underflow. -/
def counted (n : Nat) (running : Bool) (current : Nat) : Nat := if running then current - n else current

theorem giveCoil_eq {n : Nat} {s : State} (h : s.tally.coil.running = true → n < s.tally.coil.current) :
    giveCoil n s = { s with tally.coil.current := counted n s.tally.coil.running s.tally.coil.current } := by
  cases hc : s.tally.coil.running with
  | true => rw [giveCoil_of_running hc (h hc)]; rfl
  | false => rw [giveCoil_of_stopped n hc]; rfl

theorem giveMark_eq {n : Nat} {s : State} (h : s.tally.mark.running = true → n < s.tally.mark.current) :
    giveMark n s = { s with tally.mark.current := counted n s.tally.mark.running s.tally.mark.current } := by
  cases hc : s.tally.mark.running with
  | true => rw [giveMark_of_running hc (h hc)]; rfl
  | false => rw [giveMark_of_stopped n hc]; rfl

theorem giveWindow_eq {n : Nat} {s : State} (h : s.tally.window.running = true → n < s.tally.window.current) :
    giveWindow n s = { s with
      tally.window.current := counted n s.tally.window.running s.tally.window.current
      tally.windowLength :=
        if s.tally.window.running then s.tally.windowLength + n else s.tally.windowLength } := by
  cases hc : s.tally.window.running with
  | true => rw [giveWindow_of_running hc (h hc)]; rfl
  | false => rw [giveWindow_of_stopped n hc]; rfl

/-! ## Overlength (R91) -/

theorem State.overlength_iff (s : State) : s.overlength = true ↔ s.coil.openCoil.state ≠ .cutting
    ∧ s.coil.openCoil.overlengthNoted = false
    ∧ s.product.coilTarget + s.product.overlengthLimit < s.coil.openCoil.length := by
  simp [State.overlength, and_assoc]

theorem examineOverlength_of_over {s : State} (h : s.overlength = true) : examineOverlength s =
    raise .coilOverlength (some s.coil.openCoil.number) 1 0 { s with coil.openCoil.overlengthNoted := true } :=
  if_pos h

theorem examineOverlength_of_within {s : State} (h : ¬s.overlength = true) : examineOverlength s = s :=
  if_neg h

/-! ## A HAUL forward (R20, R21) -/

theorem exec_haul_of_short {pl : List Byte} {s : State} (hr : s.resetIn = false) (hl : pl.length < 2) :
    exec (.haul pl) s = .next { s with tally.shortHaul := bump s.tally.shortHaul } := by
  rw [exec_haul pl hr, haulReceived, if_pos hl]

/-- R20 step 1: what HAULWATCH makes of a nonzero increment. -/
theorem haulHeard_eq {i : Int} (s : State) (hi : i ≠ 0) : haulHeard i s =
    { s with tally.haulwatch := if s.mode = .run ∨ s.mode = .creep then
        { running := true, current := s.tables.line.haulWatch, preset := s.tables.line.haulWatch, excess := 0 }
      else s.tally.haulwatch } := by
  cases hp : s.mode.produces with
  | true =>
    rw [haulHeard_of_produces hi hp, if_pos ((s.mode.produces_iff).1 hp)]
    rfl
  | false =>
    have : ¬(s.mode = .run ∨ s.mode = .creep) := fun e => by
      rw [(s.mode.produces_iff).2 e] at hp
      cases hp
    rw [haulHeard_of_not_produces hp, if_neg this]

theorem applyIncrement_of_pos {i : Int} (s : State) (hi : 0 < i) : applyIncrement i s = haulForward i.toNat s :=
  (if_neg (by omega)).trans (if_pos hi)

/-- R21: an increment of which nothing is applied. -/
theorem haulForward_of_none {m : Nat} {s : State} (h : min m (2147483647 - s.tally.haulTotal) = 0) :
    haulForward m s = countClipped (0 < m) s := by
  unfold haulForward haulLimit
  dsimp only
  rw [h, if_pos rfl]

/-- R21: an increment of which something is applied. -/
theorem haulForward_of_some {m n : Nat} {s : State} (h : min m (2147483647 - s.tally.haulTotal) = n) (hn : 0 < n) :
    haulForward m s = giveLength n (addLength n { countClipped (n < m) s with
      tally.haulTotal := s.tally.haulTotal + n }) := by
  unfold haulForward haulLimit
  dsimp only
  rw [h, if_neg (by omega), countClipped_eq]

end Sys2Proof.Machine

/-! The length of the line (4, 5.1, 5.3): the HAUL command forward (R20, R21), the underflows of COIL and MARK (R92,
R101), and the time counters (R31 to R33, R100). -/

namespace Sys2Proof.Machine

/-! ## A positive HAUL as a whole (R20, R21) -/

/-- R20 step 1, R21: the state of a positive HAUL of `m` of which `n` is applied, before anything is applied. -/
def State.heard (s : State) (m n : Nat) : State := { s with
  tally := { s.tally with
    haulTaken := bump s.tally.haulTaken
    clippedHaul := if n < m then bump s.tally.clippedHaul else s.tally.clippedHaul
    haulwatch := if s.mode = .run ∨ s.mode = .creep then
        { running := true, current := s.tables.line.haulWatch, preset := s.tables.line.haulWatch, excess := 0 }
      else s.tally.haulwatch } }

/-- R21, R90: what a HAUL of `m` has added when `n` of it is applied. -/
def State.lengthened (s : State) (m n : Nat) : State := { s.heard m n with
  tally.haulTotal := s.tally.haulTotal + n
  coil.openCoil.length := s.coil.openCoil.length + n }

theorem exec_haul_forward {pl : List Byte} {s : State} (hr : s.resetIn = false) (hl : 2 ≤ pl.length)
    (hi : 0 < signedOf 2 (numberAt pl 1 2)) :
    exec (.haul pl) s = .next (haulForward (signedOf 2 (numberAt pl 1 2)).toNat { s with
      tally.haulTaken := bump s.tally.haulTaken
      tally.haulwatch := if s.mode = .run ∨ s.mode = .creep then
          { running := true, current := s.tables.line.haulWatch, preset := s.tables.line.haulWatch, excess := 0 }
        else s.tally.haulwatch }) := by
  rw [exec_haul_of_long hr hl, applyIncrement_of_pos _ hi, haulHeard_eq _ (Int.ne_of_gt hi)]

/-- R21: a positive HAUL of which nothing is applied, the haul total standing at its limit. -/
theorem exec_haul_of_none {pl : List Byte} {s : State} {m : Nat} (hr : s.resetIn = false) (hl : 2 ≤ pl.length)
    (hi : 0 < signedOf 2 (numberAt pl 1 2)) (hm : (signedOf 2 (numberAt pl 1 2)).toNat = m)
    (h0 : min m (2147483647 - s.tally.haulTotal) = 0) : exec (.haul pl) s = .next (s.heard m 0) := by
  rw [exec_haul_forward hr hl hi, hm, haulForward_of_none (by exact h0), countClipped_eq]
  simp only [State.heard, decide_eq_true_eq]

/-- R21: a positive HAUL of which `n` is applied. -/
theorem exec_haul_of_some {pl : List Byte} {s : State} {m n : Nat} (hr : s.resetIn = false) (hl : 2 ≤ pl.length)
    (hi : 0 < signedOf 2 (numberAt pl 1 2)) (hm : (signedOf 2 (numberAt pl 1 2)).toNat = m)
    (hn : min m (2147483647 - s.tally.haulTotal) = n) (h0 : 0 < n) :
    exec (.haul pl) s = .next (giveLength n (examineOverlength (s.lengthened m n))) := by
  rw [exec_haul_forward hr hl hi, hm, haulForward_of_some (by exact hn) h0, countClipped_eq, addLength]
  simp only [State.lengthened, State.heard, decide_eq_true_eq]

theorem State.lengthened_overlength_iff (s : State) (m n : Nat) : (s.lengthened m n).overlength = true ↔
    s.coil.openCoil.state ≠ .cutting ∧ s.coil.openCoil.overlengthNoted = false
    ∧ s.product.coilTarget + s.product.overlengthLimit < s.coil.openCoil.length + n :=
  State.overlength_iff _

/-- Settles O17, through the hand-overs that find nothing to do. -/
theorem haulForward_holds : Obligations.HaulForward := by
  intro pl s hr i n drop
  refine ⟨fun hl => exec_haul_of_short hr hl, fun hl hi => ?_, fun hl hi hlimit hover hcoil hmark hwindow => ?_⟩
  · have hi : signedOf 2 (numberAt pl 1 2) = 0 := hi
    rw [exec_haul_of_long hr hl, hi]
    rfl
  · have applied : min n (2147483647 - s.tally.haulTotal) = n := by omega
    have within : ¬(s.lengthened n n).overlength = true := by
      rw [State.lengthened_overlength_iff]
      rintro ⟨h1, h2, h3⟩
      rcases hover with h | h | h
      · exact h1 h
      · exact absurd (h2.symm.trans h) (by decide)
      · exact absurd h3 (Nat.not_lt.2 h)
    rw [exec_haul_of_some hr hl hi rfl applied (by omega), examineOverlength_of_within within, giveLength,
      giveCoil_eq (by exact hcoil), giveMark_eq (by exact hmark), giveWindow_eq (by exact hwindow)]
    simp only [State.lengthened, State.heard, Nat.lt_irrefl, if_false]
    rfl

/-- Settles O18: the stages of a positive HAUL one after another. -/
theorem haulPassesOn : Obligations.HaulPassesOn := by
  intro pl s hr hl hi m n heard longer exceeds
  refine ⟨fun h0 => ?_, fun h0 => ?_⟩
  · rw [exec_haul_of_none hr hl hi rfl h0]
    show _ = Host.Outcome.next (s.heard m n)
    rw [h0]
  · let w := examineOverlength (s.lengthened m n)
    have exceedsIff : (s.lengthened m n).overlength = true ↔ exceeds := s.lengthened_overlength_iff m n
    have wr : w.resetIn = false := by simp [w, State.lengthened, State.heard, hr]
    have xr : (giveCoil n w).resetIn = false := by simp [wr]
    have yr : (giveMark n (giveCoil n w)).resetIn = false := by simp [wr]
    exact ⟨w, giveCoil n w, giveMark n (giveCoil n w), giveWindow n (giveMark n (giveCoil n w)),
      exec_haul_of_some hr hl hi rfl rfl h0,
      fun h => examineOverlength_of_within (mt exceedsIff.1 h),
      fun h => examineOverlength_of_over (exceedsIff.2 h),
      exec_coilUnderflow wr, giveCoil_of_running, giveCoil_of_stopped n,
      exec_markUnderflow xr, giveMark_of_running, giveMark_of_stopped n,
      exec_windowEnd yr, giveWindow_of_running, giveWindow_of_stopped n⟩

/-! ## The underflows of COIL and MARK (R92, R101) -/

theorem coilUnderflowed_of_other {lag : Nat} {s : State} (h : s.coil.openCoil.state ≠ .opened) :
    coilUnderflowed lag s = s :=
  if_neg h

theorem coilUnderflowed_of_opened {lag : Nat} {s : State} (h : s.coil.openCoil.state = .opened) :
    coilUnderflowed lag s = cutRequest { s with coil.openCoil.cutLag := lag } :=
  if_pos h

theorem markUnderflowed_of_room {s : State} (l skipped : Nat) (h : s.iqdHeld < 4) : markUnderflowed l skipped s =
    { s.queueIqd (s.originate (s.tables.addressOf .cutter 127) .mark (enc2 s.coil.openCoil.number ++ enc4 l)) with
      coil.marksMissed := satAdd 65535 s.coil.marksMissed skipped } :=
  if_pos (State.iqdRoom_of_lt h)

theorem markUnderflowed_of_full {s : State} (l skipped : Nat) (h : 4 ≤ s.iqdHeld) : markUnderflowed l skipped s =
    { s with coil.marksMissed := satAdd 65535 s.coil.marksMissed (skipped + 1) } :=
  if_neg (by simp [State.iqdRoom_of_le h])

theorem markLength_of_le {length e : Nat} {c : Repeating} (h : e % c.preset ≤ length) :
    markLength length c e = length - e % c.preset :=
  if_pos h

/-- Settles O21. -/
theorem coilAndMarkUnderflow : Obligations.CoilAndMarkUnderflow := by
  refine ⟨fun t role absent hrole => ⟨addressOf_absent t role absent,
    fun a => addressOf_lowest t role absent a hrole⟩, fun n s hr => ?_⟩
  intro lag cut e reloaded
  refine ⟨fun hrun hn => ?_, fun hrun hn hle => ?_⟩
  · rw [exec_coilUnderflow hr hrun hn, giveCoil_of_underflow hrun hn]
    refine ⟨fun hs => ?_, fun hs hq hi => ?_, fun hs hq hi => ?_, fun hs hq => ?_⟩
    · rw [coilUnderflowed_of_other (by exact hs)]
      rfl
    · rw [coilUnderflowed_of_opened (by exact hs), cutRequest_of_sendable (by exact hq) (by exact hi)]
      rfl
    · rw [coilUnderflowed_of_opened (by exact hs), cutRequest_of_no_entry (by exact hq) (by exact hi)]
      rfl
    · rw [coilUnderflowed_of_opened (by exact hs), cutRequest_of_full (by exact hq)]
      rfl
  · rw [exec_markUnderflow hr hrun hn, giveMark_of_underflow hrun hn, markLength_of_le (by exact hle)]
    refine ⟨fun hi => ?_, fun hi => ?_⟩
    · rw [markUnderflowed_of_room _ _ (by exact hi)]
      rfl
    · rw [markUnderflowed_of_full _ _ (by exact hi)]
      rfl

/-! ## The time counters (R31 to R33, R100) -/

theorem OneShot.expires_iff (c : OneShot) : c.expires = true ↔ c.running = true ∧ c.current ≤ 1 := by
  simp [OneShot.expires]

theorem OneShot.tick_of_due {c : OneShot} (h : c.expires = true) : c.tick = c.underflow 0 :=
  if_pos h

theorem OneShot.tick_of_not_due {c : OneShot} (h : c.expires = false) :
    c.tick = { c with current := if c.running then c.current - 1 else c.current } := by
  rw [OneShot.tick, if_neg (by simp [h])]
  obtain ⟨running, current, preset, excess⟩ := c
  cases running <;> rfl

theorem exec_timeBaseExpiry {s : State} (hr : s.resetIn = false) :
    exec .timeBaseExpiry s = .next (timeBaseExpired s) :=
  congrArg _ (whenWorking_of_released s _ hr)

theorem exec_haulwatchUnderflow {s : State} (hr : s.resetIn = false) (hw : s.tally.haulwatch.running = true) :
    exec .haulwatchUnderflow s = .next (haulSilent { s with tally.haulwatch := s.tally.haulwatch.underflow 0 }) := by
  rw [exec_eq_next, commandEffect, whenWorking_of_released _ _ hr, haulwatchUnderflows, if_pos hw]

theorem exec_cutwaitUnderflow {s : State} (hr : s.resetIn = false) (hw : s.tally.cutwait.running = true) :
    exec .cutwaitUnderflow s = .next (cutwaitExpired { s with tally.cutwait := s.tally.cutwait.underflow 0 }) := by
  rw [exec_eq_next, commandEffect, whenWorking_of_released _ _ hr, cutwaitUnderflows, if_pos hw]

/-- R91: the overlength examination of a coil that is not CUTTING. -/
theorem examineOverlength_of_not_cutting {s : State} (h : s.coil.openCoil.state ≠ .cutting) : examineOverlength s =
    if s.coil.openCoil.overlengthNoted = false
        ∧ s.product.coilTarget + s.product.overlengthLimit < s.coil.openCoil.length then
      raise .coilOverlength (some s.coil.openCoil.number) 1 0 { s with coil.openCoil.overlengthNoted := true }
    else s := by
  have isOver : s.overlength = true ↔ s.coil.openCoil.overlengthNoted = false
      ∧ s.product.coilTarget + s.product.overlengthLimit < s.coil.openCoil.length := by
    rw [State.overlength_iff]
    exact and_iff_right h
  simp only [examineOverlength, isOver]

/-- R100: the open coil back in OPEN, overdue. -/
def State.reopened (s : State) : State :=
  { s with coil.openCoil.state := .opened, coil.openCoil.overdue := true }

theorem cutwaitExpired_eq (s : State) : cutwaitExpired s =
    raise .cutterSilent (some s.coil.openCoil.number) 1 0 (examineOverlength s.reopened) := by
  have number : (examineOverlength s.reopened).coil.openCoil.number = s.coil.openCoil.number := by
    simp [State.reopened]
  rw [← number]
  rfl

/-- R100: what a CUTWAIT expiry makes and leaves unchanged. -/
theorem cutwaitExpired_spec (s : State) :
    (cutwaitExpired s).tally.cutwait = s.tally.cutwait ∧ (cutwaitExpired s).tally.coil = s.tally.coil
    ∧ (cutwaitExpired s).coil.queue = s.coil.queue
    ∧ (cutwaitExpired s).coil.openCoil.state = .opened ∧ (cutwaitExpired s).coil.openCoil.overdue = true
    ∧ (cutwaitExpired s).coil.openCoil.number = s.coil.openCoil.number
    ∧ (cutwaitExpired s).faults.counters[10]? = s.faults.counters[10]?.map bump := by
  rw [cutwaitExpired_eq, examineOverlength_of_not_cutting (by simp [State.reopened])]
  split
  · simp [raise_counters, FaultKind.number, State.reopened]
  · simp [raise_counters, FaultKind.number, State.reopened]

/-- Settles O22. -/
theorem timeCounters : Obligations.TimeCounters := by
  intro s hr drop stopped due silent reopened examined overdue both
  have notDue {c : OneShot} (h : ¬due c) : c.expires = false := by
    rw [Bool.eq_false_iff]
    exact mt c.expires_iff.1 h
  have isDue {c : OneShot} (h : due c) : c.expires = true := c.expires_iff.2 h
  have overdueEq (x : State) : cutwaitExpired x = overdue x := by
    have hx : examineOverlength (reopened x) = examined (reopened x) :=
      examineOverlength_of_not_cutting (by simp [reopened])
    rw [cutwaitExpired_eq]
    exact congrArg (raise .cutterSilent (some x.coil.openCoil.number) 1 0) hx
  refine ⟨fun hw hc => ?_, fun hw hc => ?_, fun hw hc => ?_, fun hw hc => ?_, fun hw => ?_, fun hw => ?_, fun hw => ?_⟩
  · rw [exec_timeBaseExpiry hr, timeBaseExpired, notDue hw, notDue hc, OneShot.tick_of_not_due (notDue hw),
      OneShot.tick_of_not_due (notDue hc)]
    rfl
  · rw [exec_timeBaseExpiry hr, timeBaseExpired, isDue hw, notDue hc, OneShot.tick_of_due (isDue hw),
      OneShot.tick_of_not_due (notDue hc), exec_haulwatchUnderflow (by exact hr) (by exact hw.1)]
    rfl
  · rw [exec_timeBaseExpiry hr, timeBaseExpired, notDue hw, isDue hc, OneShot.tick_of_not_due (notDue hw),
      OneShot.tick_of_due (isDue hc), exec_cutwaitUnderflow (by exact hr) (by exact hc.1)]
    rfl
  · rw [exec_timeBaseExpiry hr, timeBaseExpired, isDue hw, isDue hc, OneShot.tick_of_due (isDue hw),
      OneShot.tick_of_due (isDue hc), handExpiries]
    split
    · exact .inl (congrArg Host.Outcome.next (overdueEq (silent both)))
    · exact .inr (congrArg (fun x => Host.Outcome.next (silent x)) (overdueEq both))
  · exact exec_haulwatchUnderflow hr hw
  · rw [exec_cutwaitUnderflow hr hw, overdueEq]
    rfl
  · obtain ⟨hcutwait, hcoil, hqueue, hstate, hoverdue, hnumber, hcounter⟩ :=
      cutwaitExpired_spec { s with tally.cutwait := s.tally.cutwait.underflow 0 }
    exact ⟨_, exec_cutwaitUnderflow hr hw, hcutwait, hstate, hoverdue, hnumber, hqueue,
      hcoil, hcounter⟩

end Sys2Proof.Machine

/-! The window end (5.3, R46 to R49): one head judged on its branches, the sums over the heads, and the statement. -/

namespace Sys2Proof.Machine

/-! ## One head judged (R46, R47) -/

/-- R46: a head is judged: it is in use and was TRACKING, DRIFT or STALE. -/
def isJudged (h : HeadRecord) (row : LayRow) : Prop :=
  row.inUse = true ∧ (h.state = .tracking ∨ h.state = .drift ∨ h.state = .stale)

theorem judgeHead_of_idle {h : HeadRecord} {row : LayRow} (w tolerance : Nat)
    (hi : row.inUse = false ∨ h.state = .broken ∨ h.state = .unused) :
    judgeHead h row w tolerance = { head := h, measured := false, noted := none } := by
  rcases hi with hi | hi | hi
  · rw [judgeHead, if_neg (by simp [hi])]
  · simp only [judgeHead, hi, ite_self]
  · simp only [judgeHead, hi, ite_self]

theorem judgeHead_of_settling {h : HeadRecord} {row : LayRow} (w tolerance : Nat) (hu : row.inUse = true)
    (hs : h.state = .settling) :
    judgeHead h row w tolerance = { head := { h with state := .tracking }, measured := false, noted := none } := by
  simp only [judgeHead, if_pos hu, hs]

theorem judgeHead_of_judged {h : HeadRecord} {row : LayRow} (w tolerance : Nat) (hj : isJudged h row) :
    judgeHead h row w tolerance = judgeReporting h row w tolerance := by
  obtain ⟨hu, hs | hs | hs⟩ := hj <;> simp only [judgeHead, if_pos hu, hs]

theorem judgeHead_of_silent {h : HeadRecord} {row : LayRow} (w tolerance : Nat) (hj : isJudged h row)
    (hr : h.reports = 0) : judgeHead h row w tolerance =
      { head := { h with state := .stale }, measured := false, noted := some .headStale } := by
  rw [judgeHead_of_judged w tolerance hj, judgeReporting, if_pos hr]

theorem judgeHead_of_measured {h : HeadRecord} {row : LayRow} (w tolerance : Nat) (hj : isJudged h row)
    (hr : 0 < h.reports) : judgeHead h row w tolerance = measureHead h row w tolerance := by
  rw [judgeHead_of_judged w tolerance hj, judgeReporting, if_neg (by omega)]

/-- R46: a head that is not judged may change its state, but is neither measured nor noted. -/
theorem judgeHead_of_not_judged {h : HeadRecord} {row : LayRow} (w tolerance : Nat) (hj : ¬isJudged h row) :
    ∃ st, judgeHead h row w tolerance = { head := { h with state := st }, measured := false, noted := none } := by
  by_cases hi : row.inUse = false ∨ h.state = .broken ∨ h.state = .unused
  · exact ⟨h.state, judgeHead_of_idle w tolerance hi⟩
  · obtain ⟨hu, hb, hn⟩ : row.inUse = true ∧ h.state ≠ .broken ∧ h.state ≠ .unused := by simpa using hi
    have hs : h.state = .settling := by
      cases e : h.state with
      | settling => rfl
      | broken => exact absurd e hb
      | unused => exact absurd e hn
      | tracking => exact absurd ⟨hu, .inl e⟩ hj
      | drift => exact absurd ⟨hu, .inr (.inl e)⟩ hj
      | stale => exact absurd ⟨hu, .inr (.inr e)⟩ hj
    exact ⟨.tracking, judgeHead_of_settling w tolerance hu hs⟩

/-- R47: a lay that cannot be measured as the row asks: no twist, or twist of the other direction. -/
def isWrongTwist (h : HeadRecord) (row : LayRow) : Prop :=
  h.windowSum = 0 ∨ (0 < h.windowSum ∧ row.direction = .s) ∨ (h.windowSum < 0 ∧ row.direction = .z)

theorem layDeviation_of_wrong {h : HeadRecord} {row : LayRow} (measured : Nat) (hw : isWrongTwist h row) :
    layDeviation h.windowSum measured row = 1000 := by
  unfold layDeviation
  rcases hw with h0 | hs | hz
  · rw [if_pos h0]
  · rw [if_neg (by omega), if_pos hs]
  · rw [if_neg (by omega), if_neg (by omega), if_pos hz]

theorem layDeviation_of_right {h : HeadRecord} {row : LayRow} (measured : Nat) (hw : ¬isWrongTwist h row) :
    layDeviation h.windowSum measured row =
      min (((measured : Int) - row.targetLay).natAbs * 1000 / row.targetLay) 65535 := by
  obtain ⟨h0, hs, hz⟩ := not_or.1 hw |>.imp_right not_or.1
  rw [layDeviation, if_neg h0, if_neg hs, if_neg hz]

/-- R47: the lay a head's window gives over extent `w`. -/
def HeadRecord.lay (h : HeadRecord) (row : LayRow) (w : Nat) : Nat := measuredLay h.windowSum w row.takeUp

/-- R47: the deviation a head's window gives over extent `w`. -/
def HeadRecord.deviation (h : HeadRecord) (row : LayRow) (w : Nat) : Nat :=
  layDeviation h.windowSum (h.lay row w) row

theorem measureHead_of_within {h : HeadRecord} {row : LayRow} {w tolerance : Nat}
    (hd : h.deviation row w ≤ tolerance) : measureHead h row w tolerance =
      { head := { h with lastLay := h.lay row w, lastDeviation := h.deviation row w, state := .tracking },
        measured := true, noted := none } :=
  if_neg (Nat.not_lt.2 hd)

theorem measureHead_of_beyond {h : HeadRecord} {row : LayRow} {w tolerance : Nat}
    (hd : tolerance < h.deviation row w) : measureHead h row w tolerance =
      { head := { h with
          lastLay := h.lay row w, lastDeviation := h.deviation row w, state := .drift,
          driftWindows := bump h.driftWindows }
        measured := true, noted := some .layDrift } :=
  if_pos hd

theorem measureHead_measured (h : HeadRecord) (row : LayRow) (w tolerance : Nat) :
    (measureHead h row w tolerance).measured = true
    ∧ (measureHead h row w tolerance).head.lastLay = h.lay row w
    ∧ (measureHead h row w tolerance).head.lastDeviation = h.deviation row w := by
  by_cases hd : h.deviation row w ≤ tolerance
  · rw [measureHead_of_within hd]
    exact ⟨rfl, rfl, rfl⟩
  · rw [measureHead_of_beyond (Nat.not_le.1 hd)]
    exact ⟨rfl, rfl, rfl⟩

/-- R46: which heads are measured. -/
theorem judgeHead_measured_iff (h : HeadRecord) (row : LayRow) (w tolerance : Nat) :
    (judgeHead h row w tolerance).measured = true ↔ isJudged h row ∧ 0 < h.reports := by
  by_cases hj : isJudged h row
  · rcases Nat.eq_zero_or_pos h.reports with hr | hr
    · simp [judgeHead_of_silent w tolerance hj hr, hr]
    · simp [judgeHead_of_measured w tolerance hj hr, (measureHead_measured h row w tolerance).1, hj, hr]
  · obtain ⟨st, e⟩ := judgeHead_of_not_judged w tolerance hj
    simp [e, hj]

/-- R48: what a window end notes of a head. -/
theorem judgeHead_noted (h : HeadRecord) (row : LayRow) (w tolerance : Nat) :
    (isJudged h row → 0 < h.reports → tolerance < h.deviation row w →
      (judgeHead h row w tolerance).noted = some .layDrift)
    ∧ (isJudged h row → 0 < h.reports → h.deviation row w ≤ tolerance → (judgeHead h row w tolerance).noted = none)
    ∧ (isJudged h row → h.reports = 0 → (judgeHead h row w tolerance).noted = some .headStale)
    ∧ (¬isJudged h row → (judgeHead h row w tolerance).noted = none) := by
  refine ⟨fun hj hr hd => ?_, fun hj hr hd => ?_, fun hj hr => ?_, fun hj => ?_⟩
  · rw [judgeHead_of_measured w tolerance hj hr, measureHead_of_beyond hd]
  · rw [judgeHead_of_measured w tolerance hj hr, measureHead_of_within hd]
  · rw [judgeHead_of_silent w tolerance hj hr]
  · obtain ⟨st, e⟩ := judgeHead_of_not_judged w tolerance hj
    rw [e]

/-- R43, R48: a window end keeps the count of slack reports. -/
theorem judgeHead_lowRun (h : HeadRecord) (row : LayRow) (w tolerance : Nat) :
    (judgeHead h row w tolerance).head.lowRun = h.lowRun := by
  by_cases hj : isJudged h row
  · rcases Nat.eq_zero_or_pos h.reports with hr | hr
    · rw [judgeHead_of_silent w tolerance hj hr]
    · rw [judgeHead_of_measured w tolerance hj hr]
      rcases Nat.lt_or_ge tolerance (h.deviation row w) with hd | hd
      · rw [measureHead_of_beyond hd]
      · rw [measureHead_of_within hd]
  · obtain ⟨st, e⟩ := judgeHead_of_not_judged w tolerance hj
    rw [e]

/-- R48, R49: a head is noted as drifting exactly when it was measured beyond the tolerance. -/
theorem judgeHead_drift_iff (h : HeadRecord) (row : LayRow) (w tolerance : Nat) :
    (judgeHead h row w tolerance).noted = some .layDrift ↔
      (isJudged h row ∧ 0 < h.reports) ∧ tolerance < h.deviation row w := by
  obtain ⟨drift, within, silent, other⟩ := judgeHead_noted h row w tolerance
  by_cases hj : isJudged h row
  · rcases Nat.eq_zero_or_pos h.reports with hr | hr
    · simp [silent hj hr, hr]
    · rcases Nat.lt_or_ge tolerance (h.deviation row w) with hd | hd
      · simp [drift hj hr hd, hj, hr, hd]
      · simp [within hj hr hd, Nat.not_lt.2 hd]
  · simp [other hj, hj]

/-! ## The 24 heads together -/

/-- R46: with 24 records, what every head is rewritten to is the list rewritten. -/
theorem mapHeads_eq_map (f : HeadRecord → HeadRecord) {s : State} (h : s.lay.heads.length = 24) :
    mapHeads (fun _ h => f h) s = { s with lay.heads := s.lay.heads.map f } := by
  have heads : allUnits.map (fun u => f (s.head u)) = s.lay.heads.map f := by
    refine List.ext_getElem (by simp [allUnits, h]) (fun i hi hi' => ?_)
    have hi : i < s.lay.heads.length := by simpa using hi'
    simp [allUnits, State.head, List.getElem?_eq_getElem hi]
  rw [mapHeads, heads]

theorem foldl_max_ge {α : Type} (p : α → Bool) (g : α → Nat) (l : List α) (a : Nat) :
    a ≤ l.foldl (fun m u => if p u then max m (g u) else m) a
    ∧ ∀ u ∈ l, p u = true → g u ≤ l.foldl (fun m u => if p u then max m (g u) else m) a := by
  induction l generalizing a with
  | nil => simp
  | cons x rest ih =>
    obtain ⟨base, above⟩ := ih (if p x then max a (g x) else a)
    refine ⟨Nat.le_trans ?_ base, fun u hu hp => ?_⟩
    · split
      · exact Nat.le_max_left _ _
      · exact Nat.le_refl _
    · rcases List.mem_cons.1 hu with rfl | hu
      · exact Nat.le_trans (by rw [if_pos hp]; exact Nat.le_max_right _ _) base
      · exact above u hu hp

theorem foldl_max_le {α : Type} (p : α → Bool) (g : α → Nat) {b : Nat} (l : List α) (a : Nat) (ha : a ≤ b)
    (h : ∀ u ∈ l, p u = true → g u ≤ b) : l.foldl (fun m u => if p u then max m (g u) else m) a ≤ b := by
  induction l generalizing a with
  | nil => exact ha
  | cons x rest ih =>
    refine ih _ ?_ (fun u hu => h u (List.mem_cons_of_mem _ hu))
    dsimp only
    split
    case isTrue hp => exact Nat.max_le.2 ⟨ha, h x List.mem_cons_self hp⟩
    case isFalse => exact ha

theorem State.anyMeasured_iff (s : State) (w : Nat) :
    s.anyMeasured w = true ↔ ∃ u, (s.judgement w u).measured = true := by
  simp [State.anyMeasured, mem_allUnits]

theorem State.anyDrift_iff (s : State) (w : Nat) :
    s.anyDrift w = true ↔ ∃ u, (s.judgement w u).noted = some .layDrift := by
  simp [State.anyDrift, mem_allUnits]

/-- R49: the deviation of the head measured worst is the greatest measured. -/
theorem State.worstMeasured_eq {s : State} {w : Nat} {v : HeadUnit} (hv : (s.judgement w v).measured = true)
    (h : ∀ u, (s.judgement w u).measured = true →
      (s.judgement w u).head.lastDeviation ≤ (s.judgement w v).head.lastDeviation) :
    s.worstMeasured w = (s.judgement w v).head.lastDeviation :=
  Nat.le_antisymm (foldl_max_le _ _ _ _ (Nat.zero_le _) (fun u _ => h u))
    ((foldl_max_ge (fun u => (s.judgement w u).measured) (fun u => (s.judgement w u).head.lastDeviation)
      allUnits 0).2 v (mem_allUnits v) hv)

/-! ## The window end on its branches (R46) -/

theorem windowEnded_of_not_supervised {s : State} (w : Nat) (hm : s.mode = .parked ∨ s.mode = .halted)
    (hl : s.lay.heads.length = 24) : windowEnded w s =
      { s with lay.heads := s.lay.heads.map (fun h => { h with windowSum := 0, reports := 0 }) } := by
  rw [windowEnded, if_neg (by rcases hm with hm | hm <;> simp [hm, Mode.supervises]), clearWindows,
    mapHeads_eq_map HeadRecord.clearWindow hl]
  rfl

/-- R46 to R49: the state of a window end when every head is judged and before the occurrences are handed on. -/
def State.judgedAll (s : State) (w : Nat) : State :=
  { mapHeads (fun u _ => (s.judgement w u).head.clearWindow) s with
    coil.openCoil := writeSummary (s.anyMeasured w) (s.anyDrift w) (s.worstMeasured w) s.coil.openCoil }

theorem windowEnded_of_supervised {s : State} (w : Nat) (hm : s.mode = .threading ∨ s.mode = .run ∨ s.mode = .creep) :
    windowEnded w s = handleAll (s.notedAtWindow w) (s.judgedAll w) :=
  if_pos ((s.mode.supervises_iff).2 hm)

theorem State.head_judgedAll (s : State) (w : Nat) (u : HeadUnit) :
    (s.judgedAll w).head u = (s.judgement w u).head.clearWindow :=
  mapHeads_head (fun u _ => (s.judgement w u).head.clearWindow) s u

/-- Settles O16: every head is judged by its own branch, and the summary and the occurrences are read from the
judgements. -/
theorem windowEnds : Obligations.WindowEnds := by
  intro n s hr hrun hn hlen w reloaded tolerance judged measured lay wrong off drifts note noted c
  let s' : State := { s with tally := reloaded }
  have runs : exec (.windowEnd n) s = .next (windowEnded w s') := by
    rw [exec_windowEnd hr hrun hn, giveWindow_of_underflow hrun hn]
    rfl
  refine ⟨fun hm => ?_, fun hm => ?_⟩
  · rw [runs, windowEnded_of_not_supervised w (by exact hm) (by exact hlen)]
  · have offEq (u : HeadUnit) : (s.head u).deviation (s.layRow u) w = off u := by
      by_cases h : wrong u
      · exact (layDeviation_of_wrong _ h).trans (if_pos h).symm
      · exact (layDeviation_of_right _ h).trans (if_neg h).symm
    have judgement (u : HeadUnit) : s'.judgement w u = judgeHead (s.head u) (s.layRow u) w tolerance := rfl
    have measuredIff (u : HeadUnit) : (s'.judgement w u).measured = true ↔ measured u :=
      judgeHead_measured_iff _ _ _ _
    have driftIff (u : HeadUnit) : (s'.judgement w u).noted = some .layDrift ↔ drifts u := by
      rw [judgement, judgeHead_drift_iff, offEq]
      rfl
    have lastDeviation (u : HeadUnit) (h : measured u) : (s'.judgement w u).head.lastDeviation = off u := by
      rw [judgement, judgeHead_of_measured _ _ h.1 h.2, ← offEq]
      exact (measureHead_measured _ _ _ _).2.2
    have notedEq : s'.notedAtWindow w = noted := by
      refine congrArg (List.filterMap · allUnits) (funext (fun u => ?_))
      obtain ⟨drift, within, silent, other⟩ := judgeHead_noted (s.head u) (s.layRow u) w tolerance
      rw [offEq] at drift within
      rw [judgement]
      by_cases hd : drifts u
      · rw [if_pos hd, drift hd.1.1 hd.1.2 hd.2]
        rfl
      · rw [if_neg hd]
        by_cases hj : judged u
        · rcases Nat.eq_zero_or_pos (s.head u).reports with hr | hr
          · rw [if_pos ⟨hj, hr⟩, silent hj hr]
            rfl
          · rw [if_neg (fun h => by omega), within hj hr (Nat.not_lt.1 fun h => hd ⟨⟨hj, hr⟩, h⟩)]
            rfl
        · rw [if_neg (fun h => hj h.1), other hj]
          rfl
    refine ⟨s'.judgedAll w, handleAll noted (s'.judgedAll w), ?_, rfl, ?_, rfl, fun h => ?_, fun v hv h => ?_, fun u => ?_⟩
    · rw [runs, windowEnded_of_supervised w (by exact hm), notedEq]
    · simp
    · have none : ¬s'.anyMeasured w = true := by
        rw [State.anyMeasured_iff]
        rintro ⟨u, hu⟩
        exact h u ((measuredIff u).1 hu)
      exact if_neg none
    · have some : s'.anyMeasured w = true := (s'.anyMeasured_iff w).2 ⟨v, (measuredIff v).2 hv⟩
      have worst : s'.worstMeasured w = off v := by
        rw [State.worstMeasured_eq ((measuredIff v).2 hv), lastDeviation v hv]
        intro u hu
        rw [lastDeviation v hv, lastDeviation u ((measuredIff u).1 hu)]
        exact h u ((measuredIff u).1 hu)
      have drift : s'.anyDrift w = true ↔ ∃ u, drifts u := (s'.anyDrift_iff w).trans (exists_congr driftIff)
      show writeSummary (s'.anyMeasured w) (s'.anyDrift w) (s'.worstMeasured w) c = _
      rw [writeSummary, if_pos some, worst]
      simp only [drift]
      rfl
    · have head : (handleAll noted (s'.judgedAll w)).head u =
          (judgeHead (s.head u) (s.layRow u) w tolerance).head.clearWindow := by
        rw [← judgement, ← State.head_judgedAll]
        simp [State.head]
      rw [head]
      refine ⟨rfl, rfl, judgeHead_lowRun .., fun hi => ?_, fun hu hs => ?_, fun hj hr => ?_, fun h => ?_, fun h hd => ?_,
        fun h hd => ?_⟩
      · rw [judgeHead_of_idle _ _ (hi.imp_right .inl)]
        rfl
      · rw [judgeHead_of_settling _ _ hu hs]
        rfl
      · rw [judgeHead_of_silent _ _ hj hr]
        rfl
      · rw [judgeHead_of_measured _ _ h.1 h.2, ← offEq]
        exact (measureHead_measured ..).2
      · rw [judgeHead_of_measured _ _ h.1 h.2, measureHead_of_within (by rwa [offEq])]
        exact ⟨rfl, rfl⟩
      · rw [judgeHead_of_measured _ _ h.1 h.2, measureHead_of_beyond (by rwa [offEq])]
        exact ⟨rfl, rfl⟩

end Sys2Proof.Machine

/-! The mesh monitor (6.1 to 6.4, R60 to R78): a processed row as an operation of the monitor alone, its taper and step
end by their branches, its listed positions one after another, and the two statements about ROWDONE. -/

namespace Sys2Proof.Machine

/-! ## One row by its branches (R69 to R71) -/

/-- R70: the edges of a taper make a band. -/
def Mesh.fits (t : Tables) (m : Mesh) : Prop :=
  0 ≤ (m.cursor.bandFirst : Int) - (t.meshRow m.cursor.stepIndex).widenLeft
  ∧ (m.cursor.bandLast : Int) + (t.meshRow m.cursor.stepIndex).widenRight ≤ 511
  ∧ (m.cursor.bandFirst : Int) - (t.meshRow m.cursor.stepIndex).widenLeft ≤
      (m.cursor.bandLast : Int) + (t.meshRow m.cursor.stepIndex).widenRight

theorem Mesh.tapered_of_not_due {t : Tables} {m : Mesh}
    (h : m.cursor.held = true ∨ m.cursor.rowsDone % (t.meshRow m.cursor.stepIndex).taperEvery ≠ 0) :
    m.tapered t = m :=
  if_neg (by
    rintro ⟨hh, hd⟩
    rcases h with h | h
    · simp [hh] at h
    · exact h hd)

theorem Mesh.tapered_of_fits {t : Tables} {m : Mesh} (hh : m.cursor.held = false)
    (hd : m.cursor.rowsDone % (t.meshRow m.cursor.stepIndex).taperEvery = 0) (hf : m.fits t) :
    m.tapered t = Mesh.within
      ((m.cursor.bandFirst : Int) - (t.meshRow m.cursor.stepIndex).widenLeft).toNat
      ((m.cursor.bandLast : Int) + (t.meshRow m.cursor.stepIndex).widenRight).toNat
      { m with cursor.taperCount := min (m.cursor.taperCount + 1) 255 } := by
  have band : taperedBand m.cursor.bandFirst m.cursor.bandLast (t.meshRow m.cursor.stepIndex) = some (_, _) := if_pos hf
  simp only [Mesh.tapered, hh, hd, and_self, if_true, band]

theorem Mesh.tapered_of_refused {t : Tables} {m : Mesh} (hh : m.cursor.held = false)
    (hd : m.cursor.rowsDone % (t.meshRow m.cursor.stepIndex).taperEvery = 0) (hf : ¬m.fits t) :
    m.tapered t = { m with
      cursor.taperCount := min (m.cursor.taperCount + 1) 255
      counts.refusedTapers := bump m.counts.refusedTapers } := by
  have band : taperedBand m.cursor.bandFirst m.cursor.bandLast (t.meshRow m.cursor.stepIndex) = none := if_neg hf
  simp only [Mesh.tapered, hh, hd, and_self, if_true, band]

theorem Mesh.stepped_of_not_due {t : Tables} {m : Mesh}
    (h : m.cursor.held = true ∨ m.cursor.rowsDone < (t.meshRow m.cursor.stepIndex).rows) : m.stepped t = m :=
  if_neg (by
    rintro ⟨hh, hd⟩
    rcases h with h | h
    · simp [hh] at h
    · exact Nat.not_lt.2 hd h)

theorem Mesh.stepped_of_last {t : Tables} {m : Mesh} (hh : m.cursor.held = false)
    (hd : (t.meshRow m.cursor.stepIndex).rows ≤ m.cursor.rowsDone)
    (hn : (t.meshRow m.cursor.stepIndex).next = none) : m.stepped t = { m with cursor.held := true } := by
  simp only [Mesh.stepped, hh, hd, and_self, if_true, hn]

theorem Mesh.stepped_of_next {t : Tables} {m : Mesh} {i : StepIndex} (hh : m.cursor.held = false)
    (hd : (t.meshRow m.cursor.stepIndex).rows ≤ m.cursor.rowsDone)
    (hn : (t.meshRow m.cursor.stepIndex).next = some i) : m.stepped t = m.entered i (t.meshRow i) := by
  simp only [Mesh.stepped, hh, hd, and_self, if_true, hn]

theorem Mesh.entered_of_valid {i : StepIndex} {row : MeshRow} {m : Mesh} (hv : row.valid = true)
    (hb : row.first ≤ row.last) : m.entered i row = Mesh.within row.first row.last
      { m with cursor.stepIndex := i, cursor.rowsDone := 0, cursor.taperCount := 0, cursor.phase := 0 } :=
  if_pos ⟨hv, hb⟩

theorem Mesh.entered_of_refused {i : StepIndex} {row : MeshRow} {m : Mesh}
    (h : row.valid = false ∨ row.last < row.first) : m.entered i row =
      { m with cursor.held := true, counts.refusedSteps := bump m.counts.refusedSteps } :=
  if_neg (by
    rintro ⟨hv, hb⟩
    rcases h with h | h
    · simp [hv] at h
    · exact Nat.not_lt.2 hb h)

theorem Mesh.within_of_no_misses {m : Mesh} (first last : Nat) (h : m.misses = []) :
    m.within first last = { m with cursor.bandFirst := first, cursor.bandLast := last } := by
  have kept : m.misses.filter (fun e => first ≤ e.position && e.position ≤ last) = m.misses := by
    rw [h]
    rfl
  rw [Mesh.within, kept]

/-- R62, R69: no row by itself changes the expected row or the pitch reference. -/
theorem Mesh.advanced_keeps (t : Tables) (m : Mesh) :
    (m.advanced t).cursor.expected = m.cursor.expected ∧ (m.advanced t).cursor.pitchRef = m.cursor.pitchRef := by
  have tapered (m : Mesh) : (m.tapered t).cursor.expected = m.cursor.expected
      ∧ (m.tapered t).cursor.pitchRef = m.cursor.pitchRef := by
    unfold Mesh.tapered
    dsimp only
    split
    · split <;> exact ⟨rfl, rfl⟩
    · exact ⟨rfl, rfl⟩
  have stepped (m : Mesh) : (m.stepped t).cursor.expected = m.cursor.expected
      ∧ (m.stepped t).cursor.pitchRef = m.cursor.pitchRef := by
    unfold Mesh.stepped Mesh.entered
    dsimp only
    split
    · split
      · exact ⟨rfl, rfl⟩
      · split <;> exact ⟨rfl, rfl⟩
    · exact ⟨rfl, rfl⟩
  exact ⟨(stepped _).1.trans (tapered _).1, (stepped _).2.trans (tapered _).2⟩

/-- R68: the rows of a gap are the row repeated. -/
theorem Mesh.repeat_advanced (t : Tables) (d : Nat) (m : Mesh) :
    Nat.repeat (Mesh.advanced t) d m = Mesh.advancedBy t d m := by
  have out (d : Nat) (m : Mesh) : Mesh.advancedBy t (d + 1) m = (Mesh.advancedBy t d m).advanced t := by
    induction d generalizing m with
    | zero => rfl
    | succ d ih => exact ih (m.advanced t)
  induction d with
  | zero => rfl
  | succ d ih => rw [out, ← ih]; rfl

theorem Mesh.advancedBy_pitchRef (t : Tables) (d : Nat) (m : Mesh) :
    (Mesh.advancedBy t d m).cursor.pitchRef = m.cursor.pitchRef := by
  induction d generalizing m with
  | zero => rfl
  | succ d ih => exact (ih _).trans (m.advanced_keeps t).2

/-! ## The listed positions (R72 to R74) -/

/-- R72: a position is checked on a row: in the band, and outside the selvedge zone or on phase 0. -/
abbrev Cursor.checks (c : Cursor) (t : Tables) (p : Nat) : Prop :=
  (c.bandFirst ≤ p ∧ p ≤ c.bandLast)
  ∧ (¬(p < c.bandFirst + (t.meshRow c.stepIndex).selvedgeWidth
      ∨ c.bandLast < p + (t.meshRow c.stepIndex).selvedgeWidth) ∨ c.phase = 0)

theorem Cursor.inBand_iff (c : Cursor) (p : Nat) : c.inBand p = true ↔ c.bandFirst ≤ p ∧ p ≤ c.bandLast := by
  simp [Cursor.inBand]

theorem Cursor.inZone_iff (c : Cursor) (width p : Nat) :
    c.inZone width p = true ↔ p < c.bandFirst + width ∨ c.bandLast < p + width := by
  simp [Cursor.inZone]

theorem State.checkable_iff (s : State) (p : Nat) : s.checkable p = true ↔ s.mesh.cursor.checks s.tables p := by
  rw [State.checkable, Bool.and_eq_true, Cursor.inBand_iff, Bool.or_eq_true, Bool.not_eq_true', ← Bool.not_eq_true,
    Cursor.inZone_iff, beq_iff_eq]
  rfl

theorem scanPosition_of_stray {sc : RowScan} {p : Nat}
    (h : ¬(sc.state.mesh.cursor.bandFirst ≤ p ∧ p ≤ sc.state.mesh.cursor.bandLast) ∨ p ∈ sc.seen) :
    scanPosition sc p = { sc with
      seen := sc.seen ++ [p]
      state := { sc.state with mesh.counts.strayPositions := bump sc.state.mesh.counts.strayPositions } } :=
  if_pos (h.imp_left (fun h => by rw [← Bool.not_eq_true, Cursor.inBand_iff]; exact h))

theorem scanPosition_of_checkable {sc : RowScan} {p : Nat} (hp : p ∉ sc.seen)
    (h : sc.state.mesh.cursor.checks sc.state.tables p) : scanPosition sc p = trackMiss p { sc with
      seen := sc.seen ++ [p], noted := sc.noted ++ [occurrence sc.state .missingKnot (some p) 1 0] } :=
  (if_neg (by
    rintro (hb | hs)
    · exact absurd ((Cursor.inBand_iff ..).2 h.1) (by simp [hb])
    · exact hp hs)).trans (if_pos ((sc.state.checkable_iff p).2 h))

theorem scanPosition_of_unchecked {sc : RowScan} {p : Nat} (hp : p ∉ sc.seen)
    (hb : sc.state.mesh.cursor.bandFirst ≤ p ∧ p ≤ sc.state.mesh.cursor.bandLast)
    (h : ¬sc.state.mesh.cursor.checks sc.state.tables p) :
    scanPosition sc p = { sc with seen := sc.seen ++ [p] } :=
  (if_neg (by
    rintro (hb' | hs)
    · exact absurd ((Cursor.inBand_iff ..).2 hb) (by simp [hb'])
    · exact hp hs)).trans (if_neg (mt (sc.state.checkable_iff p).1 h))

theorem trackMiss_of_entry {p : Nat} {sc : RowScan}
    (h : sc.state.mesh.misses.any (fun e => e.position = p) = true) : trackMiss p sc = { sc with
      state := { sc.state with
        mesh.misses := missAgain sc.state.product.needleLimit p sc.state.mesh.misses }
      noted := sc.noted ++ (if flagsNow sc.state.product.needleLimit p sc.state.mesh.misses then
        [occurrence sc.state .needleFault (some p) 1 0] else []) } :=
  if_pos h

theorem trackMiss_of_room {p : Nat} {sc : RowScan}
    (h : ¬sc.state.mesh.misses.any (fun e => e.position = p) = true) (hl : sc.state.mesh.misses.length < 32) :
    trackMiss p sc = { sc with state := { sc.state with
      mesh.misses := sc.state.mesh.misses ++ [{ position := p, misses := 1, flagged := false }] } } :=
  (if_neg h).trans (if_pos hl)

theorem trackMiss_of_full {p : Nat} {sc : RowScan}
    (h : ¬sc.state.mesh.misses.any (fun e => e.position = p) = true) (hl : ¬sc.state.mesh.misses.length < 32) :
    trackMiss p sc = missUntracked sc :=
  (if_neg h).trans (if_neg hl)

theorem missUntracked_eq (sc : RowScan) : missUntracked sc = { sc with
    state := { sc.state with mesh.counts.untrackedMisses := bump sc.state.mesh.counts.untrackedMisses }
    fullNoted := true
    noted := sc.noted ++ (if sc.fullNoted then [] else [occurrence sc.state .missTrackFull none 1 0]) } := by
  unfold missUntracked
  cases h : sc.fullNoted
  · rfl
  · simp only [if_true, List.append_nil, ← h]

/-- What step 3 gathers, its state reduced to the mesh monitor: the monitor, whether the table was full, the
occurrences noted, and the positions taken. -/
abbrev RowTake := (Mesh × Bool × List Occurrence) × List Nat

/-- What a scan has gathered, as a scan of a state. -/
def RowTake.over (x : RowTake) (s : State) : RowScan :=
  { state := { s with mesh := x.1.1 }, seen := x.2, fullNoted := x.1.2.1, noted := x.1.2.2 }

/-- R74: an entry with one miss more. -/
def MissEntry.again (limit : Nat) (e : MissEntry) : MissEntry :=
  { e with misses := min (e.misses + 1) 255, flagged := e.flagged || decide (limit ≤ min (e.misses + 1) 255) }

/-- R74: a checkable miss in the miss table. -/
def missedBy (s : State) (p : Nat) (m : Mesh) (full : Bool) (noted : List Occurrence) :
    Mesh × Bool × List Occurrence :=
  if m.misses.any (fun e => e.position = p) then
    ({ m with misses := m.misses.map (fun e => if e.position = p then e.again s.product.needleLimit else e) }, full,
      noted ++ (if ∃ e ∈ m.misses, e.position = p ∧ e.flagged = false ∧ (e.again s.product.needleLimit).flagged = true
        then [occurrence s .needleFault (some p) 1 0] else []))
  else if m.misses.length < 32 then
    ({ m with misses := m.misses ++ [{ position := p, misses := 1, flagged := false }] }, full, noted)
  else ({ m with counts.untrackedMisses := bump m.counts.untrackedMisses }, true,
    noted ++ (if full then [] else [occurrence s .missTrackFull none 1 0]))

/-- R73: one listed position on a row whose cursor is `c`. -/
def takenBy (s : State) (c : Cursor) (x : RowTake) (p : Nat) : RowTake :=
  (if ¬(c.bandFirst ≤ p ∧ p ≤ c.bandLast) ∨ p ∈ x.2 then
    ({ x.1.1 with counts.strayPositions := bump x.1.1.counts.strayPositions }, x.1.2)
  else if c.checks s.tables p then missedBy s p x.1.1 x.1.2.1 (x.1.2.2 ++ [occurrence s .missingKnot (some p) 1 0])
  else x.1, x.2 ++ [p])

theorem flagsNow_iff (limit p : Nat) (l : List MissEntry) : flagsNow limit p l = true ↔
    ∃ e ∈ l, e.position = p ∧ e.flagged = false ∧ (e.again limit).flagged = true := by
  simp only [flagsNow, List.any_eq_true, Bool.and_eq_true, Bool.not_eq_true', decide_eq_true_eq, and_assoc]
  refine exists_congr (fun e => and_congr_right fun _ => and_congr_right fun _ => and_congr_right fun hf => ?_)
  simp [MissEntry.again, hf, satAdd]

theorem trackMiss_over (s : State) (p : Nat) (m : Mesh) (full : Bool) (noted : List Occurrence) (seen : List Nat) :
    trackMiss p (RowTake.over ((m, full, noted), seen) s) = RowTake.over (missedBy s p m full noted, seen) s := by
  unfold missedBy
  by_cases hany : m.misses.any (fun e => e.position = p) = true
  · rw [if_pos hany, trackMiss_of_entry (by exact hany)]
    simp only [flagsNow_iff]
    rfl
  · rw [if_neg hany]
    by_cases hl : m.misses.length < 32
    · rw [if_pos hl, trackMiss_of_room (by exact hany) (by exact hl)]
      rfl
    · rw [if_neg hl, trackMiss_of_full (by exact hany) (by exact hl), missUntracked_eq]
      rfl

theorem missedBy_cursor (s : State) (p : Nat) (m : Mesh) (full : Bool) (noted : List Occurrence) :
    (missedBy s p m full noted).1.cursor = m.cursor := by
  unfold missedBy
  split
  · rfl
  · split <;> rfl

theorem takenBy_cursor (s : State) (c : Cursor) (x : RowTake) (p : Nat) :
    (takenBy s c x p).1.1.cursor = x.1.1.cursor := by
  unfold takenBy
  dsimp only
  split
  · rfl
  · split
    · exact missedBy_cursor ..
    · rfl

theorem scanPosition_over {s : State} {c : Cursor} {x : RowTake} (p : Nat) (hc : x.1.1.cursor = c) :
    scanPosition (x.over s) p = (takenBy s c x p).over s := by
  subst hc
  unfold takenBy
  by_cases hs : ¬(x.1.1.cursor.bandFirst ≤ p ∧ p ≤ x.1.1.cursor.bandLast) ∨ p ∈ x.2
  · rw [if_pos hs, scanPosition_of_stray (by exact hs)]
    rfl
  · rw [if_neg hs]
    obtain ⟨hb, hp⟩ := not_or.1 hs
    by_cases hk : x.1.1.cursor.checks s.tables p
    · rw [if_pos hk, scanPosition_of_checkable (by exact hp) (by exact hk), ← trackMiss_over]
      rfl
    · rw [if_neg hk, scanPosition_of_unchecked (by exact hp) (by exact Classical.not_not.1 hb) (by exact hk)]
      rfl

/-- R73: the listed positions one after another, on the monitor alone. -/
theorem scanPositions_over {s : State} {c : Cursor} (listed : List Nat) {x : RowTake} (hc : x.1.1.cursor = c) :
    scanPositions listed (x.over s) = (listed.foldl (takenBy s c) x).over s
    ∧ (listed.foldl (takenBy s c) x).1.1.cursor = c := by
  induction listed generalizing x with
  | nil => exact ⟨rfl, hc⟩
  | cons p rest ih =>
    have hc' : (takenBy s c x p).1.1.cursor = c := (takenBy_cursor ..).trans hc
    refine ⟨?_, (ih hc').2⟩
    show scanPositions rest (scanPosition (x.over s) p) = _
    rw [scanPosition_over p hc]
    exact (ih hc').1

/-! ## The row as a whole (R66) -/

/-- R76: what the clearing makes of the monitor, on a row whose cursor is `c`. -/
def Mesh.clearedOn (t : Tables) (c : Cursor) (missing : Nat) (listed : List Nat) (m : Mesh) : Mesh :=
  { m with misses := if missing ≤ 14 then m.misses.filter (fun e => ¬c.checks t e.position ∨ e.position ∈ listed)
      else m.misses }

theorem clearMisses_eq {s : State} {c : Cursor} (missing : Nat) (listed : List Nat) (hc : s.mesh.cursor = c) :
    clearMisses missing listed s = { s with mesh := s.mesh.clearedOn s.tables c missing listed } := by
  subst hc
  by_cases h : missing ≤ 14
  · have kept : (fun e : MissEntry => !s.checkable e.position || listed.contains e.position) =
        fun e => decide (¬s.mesh.cursor.checks s.tables e.position ∨ e.position ∈ listed) := by
      funext e
      rw [Bool.eq_iff_iff, decide_eq_true_eq, Bool.or_eq_true, Bool.not_eq_true', ← Bool.not_eq_true,
        State.checkable_iff, List.contains_iff_mem]
    simp only [clearMisses, Mesh.clearedOn, if_pos h, kept]
  · simp only [clearMisses, Mesh.clearedOn, if_neg h]

/-- R68: the monitor when the rows of a gap are passed. -/
def State.passed (s : State) (d : Nat) : Mesh := Mesh.advancedBy s.tables d s.mesh

/-- R73: the listed positions taken on the row after a gap. -/
def State.scannedAfter (s : State) (d : Nat) (listed : List Nat) : Mesh × Bool × List Occurrence :=
  (listed.foldl (takenBy s (s.passed d).cursor) ((s.passed d, false, []), [])).1

/-- R76: the monitor the row itself advances. -/
def State.clearedAfter (s : State) (d missing : Nat) (listed : List Nat) : Mesh :=
  (s.scannedAfter d listed).1.clearedOn s.tables (s.passed d).cursor missing listed

theorem pitchNoted_congr {x s : State} (d : Nat) (hm : x.mesh.cursor.pitchRef = s.mesh.cursor.pitchRef)
    (ht : x.tally = s.tally) (hp : x.product = s.product) : pitchNoted x d = pitchNoted s d := by
  unfold pitchNoted occurrence
  rw [hm, ht, hp]

/-- R66, R78: a processed row, with the mesh monitor advanced, scanned, cleared and advanced on its own. -/
theorem processRow_eq (d row missing : Nat) (listed : List Nat) (s : State) : processRow d row missing listed s =
    handleAll (gapNoted s d ++ (s.scannedAfter d listed).2.2 ++ remainderNoted s missing ++ pitchNoted s d)
      (expectNext row (s.withRows (d + 1) ((s.clearedAfter d missing listed).advanced s.tables))) := by
  let start : RowTake := ((s.passed d, false, []), [])
  let c := (s.passed d).cursor
  obtain ⟨scan, cursor⟩ :=
    scanPositions_over (s := s.withRows d (s.passed d)) (c := c) listed (x := start) rfl
  have scanned : scanPositions listed { state := s.withRows d (s.passed d), seen := [], fullNoted := false, noted := [] }
      = (listed.foldl (takenBy s c) start).over (s.withRows d (s.passed d)) := scan
  have cursor : (s.scannedAfter d listed).1.cursor = c := cursor
  have cleared : clearMisses missing listed
      ((listed.foldl (takenBy s c) start).over (s.withRows d (s.passed d))).state =
        s.withRows d (s.clearedAfter d missing listed) :=
    clearMisses_eq missing listed cursor
  have pitch : pitchNoted (s.withRows d (s.clearedAfter d missing listed)) d = pitchNoted s d :=
    pitchNoted_congr d ((congrArg Cursor.pitchRef cursor).trans (Mesh.advancedBy_pitchRef ..)) rfl rfl
  simp only [processRow, advanceBy_eq]
  rw [← State.passed, scanned, cleared, pitch, advance_eq, withRows_withRows]
  rfl

/-- R66, R67: a ROWDONE processed. -/
theorem exec_rowdone_of_processed {pl : List Byte} {s : State} {d : Nat} (hr : s.resetIn = false)
    (hm : s.mode = .threading ∨ s.mode = .run ∨ s.mode = .creep) (ha : s.mesh.active = true)
    (hl : 3 + 2 * min (numberAt pl 3 1) 14 ≤ pl.length)
    (hd : rowDistance s.mesh.cursor.expected (numberAt pl 1 2) = d) (hlt : d < 256) :
    exec (.rowdone pl) s =
      .next (processRow d (numberAt pl 1 2) (numberAt pl 3 1) (listedPositions pl) s) := by
  have accepted : ¬rowdoneRejected pl = true := by
    rw [rowdoneRejected_iff]
    omega
  rw [exec_rowdone pl hr, rowdoneReceived_of_processed accepted
    ((s.processesRows_iff).2 ⟨(s.mode.supervises_iff).2 hm, ha⟩), rowReported, hd, if_neg (by omega)]

/-- R68, R77: what a row notes when there is no gap and no row pitch to check. -/
theorem pitchNoted_of_unchecked {s : State} (d : Nat)
    (h : s.mesh.cursor.pitchRef = none ∨ s.product.rowPitch = 0) : pitchNoted s d = [] := by
  unfold pitchNoted
  rcases h with h | h
  · rw [h]
  · split
    · rfl
    · rw [if_pos h]

theorem rowDistance_eq_zero {expected : Option Nat} {row : Nat} (h : expected = none ∨ expected = some row) :
    rowDistance expected row = 0 := by
  rcases h with rfl | rfl
  · rfl
  · simp [rowDistance]

end Sys2Proof.Machine

/-! The two statements about a processed ROWDONE (R66 to R78), from the row as an operation of the mesh monitor. -/

namespace Sys2Proof.Machine

/-- R66 step 7: the monitor with the next row expected. -/
def Mesh.expecting (row haul : Nat) (m : Mesh) : Mesh :=
  { m with cursor.expected := some ((row + 1) % 65536), cursor.pitchRef := some haul }

/-- R69, R90: the state of a row counted, with the next row expected. -/
def State.rowTaken (s : State) (d row : Nat) (m : Mesh) : State := { s with
  coil.openCoil.rows :=
    if s.coil.openCoil.net then min (s.coil.openCoil.rows + (d + 1)) 65535 else s.coil.openCoil.rows
  mesh := m.expecting row s.tally.haulTotal }

theorem expectNext_withRows (s : State) (d row : Nat) (m : Mesh) :
    expectNext row (s.withRows (d + 1) m) = s.rowTaken d row m := by
  have rows : (if s.coil.openCoil.net = true ∧ 0 < d + 1 then min (s.coil.openCoil.rows + (d + 1)) 65535
      else s.coil.openCoil.rows) =
      if s.coil.openCoil.net then min (s.coil.openCoil.rows + (d + 1)) 65535 else s.coil.openCoil.rows := by
    simp
  exact congrArg (fun r => ({ s with
    coil.openCoil.rows := r, mesh := m.expecting row s.tally.haulTotal } : State)) rows

/-! ## A row without a missing knot -/

theorem State.clearedAfter_of_no_misses {s : State} (h : s.mesh.misses = []) : s.clearedAfter 0 0 [] = s.mesh := by
  show ({ s.mesh with misses := s.mesh.misses.filter _ } : Mesh) = s.mesh
  rw [h, List.filter_nil, ← h]

theorem exec_rowdone_of_no_knots {pl : List Byte} {s : State} (hr : s.resetIn = false) (hl : 3 ≤ pl.length)
    (hk : numberAt pl 3 1 = 0) (hm : s.mode = .threading ∨ s.mode = .run ∨ s.mode = .creep)
    (ha : s.mesh.active = true) (hmiss : s.mesh.misses = [])
    (he : s.mesh.cursor.expected = none ∨ s.mesh.cursor.expected = some (numberAt pl 1 2))
    (hp : s.mesh.cursor.pitchRef = none ∨ s.product.rowPitch = 0) :
    exec (.rowdone pl) s = .next (s.rowTaken 0 (numberAt pl 1 2) (s.mesh.advanced s.tables)) := by
  have listed : listedPositions pl = [] := by simp [listedPositions, listedCount, hk]
  rw [exec_rowdone_of_processed hr hm ha (by rw [hk]; exact hl) (rowDistance_eq_zero he) (by decide), hk, listed,
    processRow_eq, pitchNoted_of_unchecked 0 hp, s.clearedAfter_of_no_misses hmiss, expectNext_withRows]
  rfl

/-! ## A row in general -/

/-- R70: the taper as the condition on the new edges states it. -/
theorem Mesh.tapered_eq (t : Tables) (m : Mesh) : m.tapered t =
    let first := (m.cursor.bandFirst : Int) - (t.meshRow m.cursor.stepIndex).widenLeft
    let last := (m.cursor.bandLast : Int) + (t.meshRow m.cursor.stepIndex).widenRight
    let more : Mesh := { m with cursor.taperCount := min (m.cursor.taperCount + 1) 255 }
    if m.cursor.held = true ∨ m.cursor.rowsDone % (t.meshRow m.cursor.stepIndex).taperEvery ≠ 0 then m
    else if 0 ≤ first ∧ last ≤ 511 ∧ first ≤ last then more.within first.toNat last.toNat
    else { more with counts.refusedTapers := bump m.counts.refusedTapers } := by
  dsimp only
  by_cases hd : m.cursor.held = true ∨ m.cursor.rowsDone % (t.meshRow m.cursor.stepIndex).taperEvery ≠ 0
  · rw [if_pos hd, Mesh.tapered_of_not_due hd]
  · obtain ⟨hh, hz⟩ := not_or.1 hd
    rw [if_neg hd]
    by_cases hf : m.fits t
    · exact (Mesh.tapered_of_fits (by simpa using hh) (Classical.not_not.1 hz) hf).trans (if_pos hf).symm
    · exact (Mesh.tapered_of_refused (by simpa using hh) (Classical.not_not.1 hz) hf).trans (if_neg hf).symm

/-- R71: the step end as the condition on the rows done states it. -/
theorem Mesh.stepped_eq (t : Tables) (m : Mesh) : m.stepped t =
    if m.cursor.held = true ∨ m.cursor.rowsDone < (t.meshRow m.cursor.stepIndex).rows then m
    else match (t.meshRow m.cursor.stepIndex).next with
      | none => { m with cursor.held := true }
      | some i => m.entered i (t.meshRow i) := by
  by_cases hd : m.cursor.held = true ∨ m.cursor.rowsDone < (t.meshRow m.cursor.stepIndex).rows
  · rw [if_pos hd, Mesh.stepped_of_not_due hd]
  · obtain ⟨hh, hz⟩ := not_or.1 hd
    rw [if_neg hd]
    cases hn : (t.meshRow m.cursor.stepIndex).next with
    | none => rw [Mesh.stepped_of_last (by simpa using hh) (Nat.not_lt.1 hz) hn]
    | some i => rw [Mesh.stepped_of_next (by simpa using hh) (Nat.not_lt.1 hz) hn]

theorem Mesh.within_eq (first last : Nat) (m : Mesh) : m.within first last =
    { m with
      cursor.bandFirst := first
      cursor.bandLast := last
      misses := m.misses.filter (fun e => first ≤ e.position ∧ e.position ≤ last) } := by
  simp only [Mesh.within, Bool.decide_and]

theorem gapNoted_eq (s : State) (d : Nat) : gapNoted s d = if d = 0 then [] else
    [occurrence s .rowGap none d (match s.mesh.cursor.pitchRef with
      | none => 0
      | some r => s.tally.haulTotal - r)] :=
  rfl

theorem pitchNoted_eq (s : State) (d : Nat) : pitchNoted s d = match s.mesh.cursor.pitchRef with
    | none => []
    | some r =>
      if s.product.rowPitch ≠ 0 ∧ s.product.pitchTolerance <
          (((s.tally.haulTotal : Int) - r) - (s.product.rowPitch * (1 + d) : Nat)).natAbs * 1000
            / (s.product.rowPitch * (1 + d)) then
        [occurrence s .rowPitch none 1 (max ((s.tally.haulTotal : Int) - r) 0).toNat]
      else [] := by
  unfold pitchNoted
  cases s.mesh.cursor.pitchRef with
  | none => rfl
  | some r =>
    have extent : (max ((s.tally.haulTotal : Int) - r) 0).toNat = ((s.tally.haulTotal : Int) - r).toNat := by omega
    by_cases hp : s.product.rowPitch = 0
    · simp only [ne_eq, hp, not_true_eq_false, false_and, if_true, if_false]
    · simp only [ne_eq, hp, not_false_eq_true, true_and, if_false, extent]

/-- Settles O23: the first part by the branches of one advance, the second stage by stage. -/
theorem rowdoneCounted : Obligations.RowdoneCounted := by
  refine ⟨fun pl s hr hl hk hm ha hmiss he hp => ?_, fun pl d s hr hm ha hl hd he => ?_⟩
  · intro c step done moved first last fits becomes
    let m := s.mesh.counted s.tables
    have runs {x : Mesh} (h : s.mesh.advanced s.tables = x) : becomes (x.expecting (numberAt pl 1 2) s.tally.haulTotal) := by
      show exec (.rowdone pl) s = _
      rw [exec_rowdone_of_no_knots hr hl hk hm ha hmiss he hp, h]
      rfl
    refine ⟨fun h => ?_, fun hh hd hlt hf => ?_, fun hh hd hlt hf => ?_, fun hh hd hge hn => ?_,
      fun i hh hd hge hn => ?_⟩
    · have noTaper : m.tapered s.tables = m := Mesh.tapered_of_not_due (h.imp_right And.left)
      have noStep : m.stepped s.tables = m := Mesh.stepped_of_not_due (h.imp_right And.right)
      exact runs (x := m) (by rw [Mesh.advanced, noTaper, noStep])
    · have taper := (Mesh.tapered_of_fits (t := s.tables) (m := m) hh hd hf).trans
        (Mesh.within_of_no_misses _ _ hmiss)
      have noStep : (m.tapered s.tables).stepped s.tables = m.tapered s.tables :=
        Mesh.stepped_of_not_due (.inr (by rw [taper]; exact hlt))
      exact runs (noStep.trans taper)
    · have taper := Mesh.tapered_of_refused (t := s.tables) (m := m) hh hd hf
      have noStep : (m.tapered s.tables).stepped s.tables = m.tapered s.tables :=
        Mesh.stepped_of_not_due (.inr (by rw [taper]; exact hlt))
      exact runs (noStep.trans taper)
    · have noTaper : m.tapered s.tables = m := Mesh.tapered_of_not_due (.inr hd)
      have ended := Mesh.stepped_of_last (t := s.tables) (m := m) hh hge hn
      exact runs ((congrArg (Mesh.stepped s.tables) noTaper).trans ended)
    · have noTaper : m.tapered s.tables = m := Mesh.tapered_of_not_due (.inr hd)
      have ended : s.mesh.advanced s.tables = m.entered i (s.tables.meshRow i) :=
        (congrArg (Mesh.stepped s.tables) noTaper).trans
          (Mesh.stepped_of_next (t := s.tables) (m := m) hh hge hn)
      intro row
      refine ⟨fun hv hb => ?_, fun h => ?_⟩
      · exact runs (ended.trans ((Mesh.entered_of_valid hv hb).trans (Mesh.within_of_no_misses _ _ hmiss)))
      · exact runs (ended.trans (Mesh.entered_of_refused h))
  · intro row missing listed stepOf note counted within tapered enters stepped advanced passed c inBand inZone checkable
      again missed taken scanned cleared ended gap pitch noted
    have distance : rowDistance s.mesh.cursor.expected row = d := by
      rcases he with ⟨he, rfl⟩ | ⟨e, he, -, rfl⟩ <;> rw [he] <;> rfl
    have withinEq : within = Mesh.within := by
      funext first last m
      rw [Mesh.within_eq]
    have taperedEq : tapered = Mesh.tapered s.tables := by
      funext m
      rw [Mesh.tapered_eq, ← withinEq]
    have steppedEq : stepped = Mesh.stepped s.tables := by
      funext m
      rw [Mesh.stepped_eq]
      have entersEq (i : StepIndex) (r : MeshRow) : enters m i r = m.entered i r := by
        simp only [enters, withinEq, Mesh.entered]
      simp only [stepped, entersEq] <;> rfl
    have advancedEq : advanced = Mesh.advanced s.tables := by
      funext m
      simp only [advanced, steppedEq, taperedEq]
      rfl
    have passedEq : passed = s.passed d := by
      simp only [passed, advancedEq, Mesh.repeat_advanced]
      rfl
    have takenEq : taken = takenBy s (s.passed d).cursor := by
      rw [← passedEq]
      rfl
    have scannedEq : scanned = s.scannedAfter d listed := by
      simp only [scanned, takenEq, passedEq]
      rfl
    have clearedEq : cleared = s.clearedAfter d missing listed := by
      rw [State.clearedAfter, ← scannedEq, ← passedEq]
      rfl
    have endedEq : ended = (s.clearedAfter d missing listed).advanced s.tables := by
      simp only [ended, advancedEq, clearedEq]
    have notedEq : noted = gapNoted s d ++ (s.scannedAfter d listed).2.2 ++ remainderNoted s missing
        ++ pitchNoted s d := by
      rw [← scannedEq, gapNoted_eq, pitchNoted_eq]
      rfl
    rw [exec_rowdone_of_processed hr hm ha hl distance hd, processRow_eq, expectNext_withRows]
    rw [notedEq, endedEq]
    rfl

/-! ## One listed position, the cursor held (R72 to R74) -/

theorem takenBy_of_stray {s : State} {c : Cursor} {p : Nat} (m : Mesh) (h : ¬(c.bandFirst ≤ p ∧ p ≤ c.bandLast)) :
    (takenBy s c ((m, false, []), []) p).1 =
      ({ m with counts.strayPositions := bump m.counts.strayPositions }, false, []) :=
  if_pos (.inl h)

theorem takenBy_of_unchecked {s : State} {c : Cursor} {p : Nat} (m : Mesh) (hb : c.bandFirst ≤ p ∧ p ≤ c.bandLast)
    (h : ¬c.checks s.tables p) : (takenBy s c ((m, false, []), []) p).1 = (m, false, []) :=
  (if_neg (by simp [hb])).trans (if_neg h)

theorem takenBy_of_checked {s : State} {c : Cursor} {p : Nat} (m : Mesh) (h : c.checks s.tables p) :
    (takenBy s c ((m, false, []), []) p).1 = missedBy s p m false [occurrence s .missingKnot (some p) 1 0] :=
  (if_neg (by simp [h.1])).trans (if_pos h)

theorem missedBy_of_no_misses {s : State} {m : Mesh} (p : Nat) (noted : List Occurrence) (h : m.misses = []) :
    missedBy s p m false noted =
      ({ m with misses := [{ position := p, misses := 1, flagged := false }] }, false, noted) := by
  rw [missedBy, if_neg (by simp [h]), if_pos (by simp [h])]
  simp only [h, List.nil_append]

theorem missedBy_of_one {s : State} {m : Mesh} {p : Nat} {e : MissEntry} (noted : List Occurrence)
    (h : m.misses = [e]) (he : e.position = p) (hf : e.flagged = false) : missedBy s p m false noted =
      ({ m with misses := [e.again s.product.needleLimit] }, false,
        noted ++ if (e.again s.product.needleLimit).flagged = true then [occurrence s .needleFault (some p) 1 0]
          else []) := by
  rw [missedBy, if_pos (by simp [h, he])]
  simp [h, he, hf]

/-- R69: a held cursor counts its rows and does nothing else. -/
theorem Mesh.advanced_of_held {t : Tables} {m : Mesh} (h : m.cursor.held = true) : m.advanced t = m.counted t := by
  have taper : (m.counted t).tapered t = m.counted t := Mesh.tapered_of_not_due (.inl h)
  rw [Mesh.advanced, taper]
  exact Mesh.stepped_of_not_due (.inl h)

/-- R76: the entry of a listed position stays. -/
theorem Mesh.clearedOn_of_listed {t : Tables} {c : Cursor} {m : Mesh} {p : Nat}
    (h : ∀ e ∈ m.misses, e.position = p) : m.clearedOn t c 1 [p] = m := by
  have kept : m.misses.filter (fun e => ¬c.checks t e.position ∨ e.position ∈ [p]) = m.misses :=
    List.filter_eq_self.2 (fun e he => by simp [h e he])
  rw [Mesh.clearedOn, if_pos (by decide), kept]

/-- R66, R73: the row of one listed position, the cursor held. -/
theorem exec_rowdone_of_one {pl : List Byte} {s : State} {x : Mesh × Bool × List Occurrence}
    (hr : s.resetIn = false) (hl : 5 ≤ pl.length) (hk : numberAt pl 3 1 = 1)
    (hm : s.mode = .threading ∨ s.mode = .run ∨ s.mode = .creep) (ha : s.mesh.active = true)
    (hh : s.mesh.cursor.held = true)
    (he : s.mesh.cursor.expected = none ∨ s.mesh.cursor.expected = some (numberAt pl 1 2))
    (hp : s.mesh.cursor.pitchRef = none ∨ s.product.rowPitch = 0)
    (hx : (takenBy s s.mesh.cursor ((s.mesh, false, []), []) (numberAt pl 4 2)).1 = x)
    (hmiss : ∀ e ∈ x.1.misses, e.position = numberAt pl 4 2) :
    exec (.rowdone pl) s = .next
      (handleAll x.2.2 (s.rowTaken 0 (numberAt pl 1 2) (x.1.counted s.tables))) := by
  have listed : listedPositions pl = [numberAt pl 4 2] := by simp [listedPositions, listedCount, hk]
  have scanned : s.scannedAfter 0 [numberAt pl 4 2] = x := hx
  have cursor : x.1.cursor = s.mesh.cursor := by
    rw [← hx]
    exact takenBy_cursor ..
  have cleared : s.clearedAfter 0 1 [numberAt pl 4 2] = x.1 := by
    rw [State.clearedAfter, scanned, Mesh.clearedOn_of_listed hmiss]
  have advanced : x.1.advanced s.tables = x.1.counted s.tables := Mesh.advanced_of_held (by rw [cursor, hh])
  rw [exec_rowdone_of_processed hr hm ha (by rw [hk]; exact hl) (rowDistance_eq_zero he) (by decide), hk, listed,
    processRow_eq, pitchNoted_of_unchecked 0 hp, expectNext_withRows, scanned, cleared, advanced]
  simp [gapNoted, remainderNoted]

/-- R87, R88: the points a missing knot at a named position adds. -/
theorem handle_missingKnot_points (s : State) (src : Option Nat) (extent stamp : Nat) :
    (handle { kind := .missingKnot, source := src, count := 1, extent := extent, stamp := stamp } s).coil.openCoil.points
      = min (s.coil.openCoil.points + 1) 4294967295 := by
  rw [handle_coil_eq]
  exact addDefect_points ..

/-- Settles O24, by what the one listed position is. -/
theorem missingKnotRecorded : Obligations.MissingKnotRecorded := by
  intro pl s hr hl hk hm ha hh hexp c p width inBand inZone up
  have he : s.mesh.cursor.expected = none ∨ s.mesh.cursor.expected = some (numberAt pl 1 2) :=
    hexp.imp And.left And.left
  have hp : s.mesh.cursor.pitchRef = none ∨ s.product.rowPitch = 0 := hexp.imp And.right And.right
  have runs {t : State} (ht : exec (.rowdone pl) s = .next t) {x : Mesh × Bool × List Occurrence}
      (hx : (takenBy s c ((s.mesh, false, []), []) p).1 = x) (hmiss : ∀ e ∈ x.1.misses, e.position = p) :
      t = handleAll x.2.2 (s.rowTaken 0 (numberAt pl 1 2) (x.1.counted s.tables)) :=
    Host.Outcome.next.inj (ht.symm.trans (exec_rowdone_of_one hr hl hk hm ha hh he hp hx hmiss))
  obtain ⟨t, ht⟩ : ∃ t, exec (.rowdone pl) s = .next t := ⟨_, exec_rowdone pl hr⟩
  refine ⟨t, ht, fun hb hnone => ?_, fun hb hz hphase hnone => ?_, fun hb hz hnone => ?_, fun m hb hz hone hlt => ?_⟩
  · rw [runs ht (takenBy_of_stray _ hb) (by simp [hnone])]
    exact ⟨hnone, rfl, rfl⟩
  · have unchecked : ¬c.checks s.tables p := fun h => h.2.elim (fun h => h hz) hphase
    rw [runs ht (takenBy_of_unchecked _ hb unchecked) (by simp [hnone])]
    exact ⟨hnone, rfl, rfl⟩
  · rw [runs ht ((takenBy_of_checked _ ⟨hb, hz⟩).trans (missedBy_of_no_misses p _ hnone)) (by simp)]
    refine ⟨?_, ?_, ?_⟩
    · simp [State.rowTaken, Mesh.expecting, Mesh.counted]
    · exact handle_counters ..
    · exact handle_missingKnot_points ..
  · have one := missedBy_of_one (s := s) [occurrence s .missingKnot (some p) 1 0] hone rfl rfl
    have row := runs ht ((takenBy_of_checked _ ⟨hb, hz⟩).trans one) (by simp [MissEntry.again])
    have again : min (m + 1) 255 = m + 1 := by omega
    refine ⟨fun hlimit => ?_, fun hlimit => ?_⟩
    · have unflagged : ¬s.product.needleLimit ≤ m + 1 := Nat.not_le.2 hlimit
      simp only [MissEntry.again, again, decide_eq_false unflagged, Bool.or_self, Bool.false_eq_true, if_false,
        List.append_nil] at row
      rw [row]
      refine ⟨?_, ?_⟩
      · simp [State.rowTaken, Mesh.expecting, Mesh.counted]
      · exact handle_counters ..
    · simp only [MissEntry.again, again, decide_eq_true hlimit, Bool.false_or, if_true] at row
      rw [row]
      refine ⟨?_, ?_⟩
      · simp [State.rowTaken, Mesh.expecting, Mesh.counted]
      · exact (handle_counters ..).trans (congrArg (List.modify · 4 bump) (handle_counters ..))

end Sys2Proof.Machine

/-! The CUTDONE and PACKED commands on their branches (5.4, 5.6): a CUTDONE that closes nothing (R97), and the packing of
the coil queue (R104, R95). -/

namespace Sys2Proof.Machine

/-! ## A CUTDONE that closes nothing (R97) -/

theorem exec_cutdone_of_short {pl : List Byte} {s : State} (hr : s.resetIn = false) (hl : pl.length < 4) :
    exec (.cutdone pl) s = .next { s with coil.rejectedFrames := bump s.coil.rejectedFrames } := by
  rw [exec_cutdone pl hr, cutdoneReceived, if_pos hl]

theorem State.answers_iff (s : State) (n : Nat) :
    s.answers n = true ↔ s.coil.openCoil.number = n ∧ s.coil.openCoil.state = .cutting := by
  simp [State.answers]

theorem exec_cutdone_of_unexpected {pl : List Byte} {s : State} (hr : s.resetIn = false) (hl : 4 ≤ pl.length)
    (h : ¬s.answers (numberAt pl 1 2) = true) :
    exec (.cutdone pl) s = .next (raise .cutUnexpected (some (numberAt pl 1 2)) 1 0 s) := by
  rw [exec_cutdone pl hr, cutdoneReceived, if_neg (by omega), if_neg h]

theorem exec_cutdone_of_answers {pl : List Byte} {s : State} (hr : s.resetIn = false) (hl : 4 ≤ pl.length)
    (h : s.answers (numberAt pl 1 2) = true) :
    exec (.cutdone pl) s = .next (closeAndOpen (numberAt pl 3 2) s) := by
  rw [exec_cutdone pl hr, cutdoneReceived, if_neg (by omega), if_pos h]

/-- Settles O25. -/
theorem cutdoneUnexpected : Obligations.CutdoneUnexpected := by
  intro pl s hr n
  refine ⟨exec_cutdone_of_short hr, fun hl hn => ?_⟩
  have unexpected : ¬s.answers n = true := by
    rw [State.answers_iff]
    rintro ⟨hnumber, hstate⟩
    exact hn.elim (fun h => h hnumber) (fun h => h hstate)
  refine ⟨exec_cutdone_of_unexpected hr hl unexpected, raise_coil rfl .., ?_⟩
  simp

/-! ## The coil queue searched (R104) -/

theorem queue_find_of_first {q before after : List CoilRecord} {r : CoilRecord} {p : CoilRecord → Bool}
    (hq : q = before ++ r :: after) (hb : ∀ x ∈ before, p x = false) (hr : p r = true) : q.find? p = some r :=
  List.find?_eq_some_iff_append.2 ⟨hr, before, after, hq, fun x hx => by simp [hb x hx]⟩

theorem removeCoil_append {before : List CoilRecord} {r : CoilRecord} {n : Nat} (after : List CoilRecord)
    (hb : ∀ x ∈ before, x.number ≠ n) (hr : r.number = n) : removeCoil n (before ++ r :: after) = before ++ after := by
  induction before with
  | nil => exact if_pos hr
  | cons x rest ih =>
    have hx : removeCoil n (x :: (rest ++ r :: after)) = x :: removeCoil n (rest ++ r :: after) :=
      if_neg (hb x List.mem_cons_self)
    exact hx.trans (congrArg (x :: ·) (ih (fun y hy => hb y (List.mem_cons_of_mem _ hy))))

/-! ## PACKED on its branches (R104) -/

theorem exec_packed_of_short {src : Addr} {pl : List Byte} {s : State} (hr : s.resetIn = false) (hl : pl.length < 2) :
    exec (.packed src pl) s = .next { s with coil.rejectedFrames := bump s.coil.rejectedFrames } := by
  rw [exec_packed src pl hr, packedReceived, if_pos hl]

theorem exec_packed_of_named {src : Addr} {pl : List Byte} {s : State} (hr : s.resetIn = false) (hl : 2 ≤ pl.length) :
    exec (.packed src pl) s = .next (packedNamed src (numberAt pl 1 2) s) := by
  rw [exec_packed src pl hr, packedReceived, if_neg (by omega)]

theorem packedNamed_of_unknown {src : Addr} {n : Nat} {s : State} (h : ∀ r ∈ s.coil.queue, r.number ≠ n) :
    packedNamed src n s = nackPacked src nackUnknownCoil s := by
  have none : s.coil.queue.find? (fun r => r.number = n) = none := List.find?_eq_none.2 (by simpa using h)
  rw [packedNamed, none]

theorem packedNamed_of_oldest {src : Addr} {s : State} {before after : List CoilRecord} {r : CoilRecord}
    (hq : s.coil.queue = before ++ r :: after) (hr : r.state = .labelled)
    (hb : ∀ x ∈ before, x.number ≠ r.number ∧ x.state ≠ .labelled) :
    packedNamed src r.number s = packOldest r s := by
  have named : s.coil.queue.find? (fun x => x.number = r.number) = some r :=
    queue_find_of_first hq (fun x hx => by simpa using (hb x hx).1) (by simp)
  have oldest : oldestLabelled s.coil.queue = some r :=
    queue_find_of_first hq (fun x hx => by simpa using (hb x hx).2) (by simpa using hr)
  rw [packedNamed, named]
  simp only [oldest, Option.map_some, if_true]

theorem packedNamed_of_other {src : Addr} {n : Nat} {s : State} (hn : ∃ r ∈ s.coil.queue, r.number = n)
    (h : ∀ before r after, s.coil.queue = before ++ r :: after → r.state = .labelled →
      (∀ x ∈ before, x.state ≠ .labelled) → r.number ≠ n) :
    packedNamed src n s = raise .packOrder (some n) 1 0 (nackPacked src nackOutOfOrder s) := by
  obtain ⟨r, named⟩ : ∃ r, s.coil.queue.find? (fun x => x.number = n) = some r := by
    rw [← Option.isSome_iff_exists, List.find?_isSome]
    simpa using hn
  have notOldest : (oldestLabelled s.coil.queue).map CoilRecord.number ≠ some n := by
    intro e
    obtain ⟨x, hx, hxn⟩ := Option.map_eq_some_iff.1 e
    obtain ⟨hl, before, after, hq, hb⟩ := List.find?_eq_some_iff_append.1 hx
    exact h before x after hq (by simpa using hl) (fun y hy => by simpa using hb y hy) hxn
  rw [packedNamed, named]
  simp only [if_neg notOldest]

theorem nackPacked_eq (src : Addr) (reason : Byte) (s : State) : nackPacked src reason s =
    if s.iqdHeld < 4 then s.queueIqd (s.originate src .nack [FrameKind.packed.code, reason])
    else { s with coil.nacksNotSent := bump s.coil.nacksNotSent } := by
  simp only [nackPacked, State.iqdRoom, decide_eq_true_eq]

/-! ## The room made (R95) -/

/-- R104: the queue shorter by the coil packed. -/
def State.packedOut (s : State) (q : List CoilRecord) (length : Nat) : State :=
  { s with coil.queue := q, tally.packedTotal := s.tally.packedTotal + length }

theorem packOldest_eq {s : State} {before after : List CoilRecord} {r : CoilRecord}
    (hq : s.coil.queue = before ++ r :: after) (hb : ∀ x ∈ before, x.number ≠ r.number) :
    packOldest r s = roomMade (s.packedOut (before ++ after) r.length) := by
  rw [packOldest, hq, removeCoil_append after hb rfl]
  rfl

theorem roomMade_of_other {s : State} (h : s.coil.openCoil.state ≠ .cutWaitRoom) : roomMade s = s :=
  if_neg h

theorem roomMade_of_waiting {s : State} (h : s.coil.openCoil.state = .cutWaitRoom) :
    roomMade s = creepExit (cutWithRoom s) :=
  if_pos h

theorem cutWithRoom_eq (s : State) : cutWithRoom s = if s.iqdHeld < 4 then sendCutreq s else setOpenState .cutWaitSend s := by
  simp only [cutWithRoom, State.iqdRoom, decide_eq_true_eq]

theorem State.hasRecordOfClass_eq_false_iff (s : State) (c : FaultClass) :
    s.hasRecordOfClass c = false ↔ ∀ f ∈ s.faults.list, f.classTaken ≠ c := by
  simp [State.hasRecordOfClass]

/-- R14: the conditions of the CREEP exit. -/
def State.mayExitCreep (s : State) : Prop :=
  s.mode = .creep ∧ (∀ f ∈ s.faults.list, f.classTaken ≠ .creep) ∧ s.coil.openCoil.state ≠ .cutWaitRoom

theorem creepExit_of_not {s : State} (h : ¬s.mayExitCreep) : creepExit s = s :=
  if_neg (by rwa [s.hasRecordOfClass_eq_false_iff])

theorem creepExit_of_free {s : State} (h : s.mayExitCreep) (hl : s.store.latchPending ≠ some .halt) :
    creepExit s = { s with mode := .run, store.latchPending := some .go } :=
  (if_pos (by rwa [s.hasRecordOfClass_eq_false_iff])).trans (if_neg hl)

theorem creepExit_of_halt {s : State} (h : s.mayExitCreep) (hl : s.store.latchPending = some .halt) :
    creepExit s = { s with mode := .run } :=
  (if_pos (by rwa [s.hasRecordOfClass_eq_false_iff])).trans (if_pos hl)

/-- Settles O28, by what the coil queue holds of the number. -/
theorem packedHandled : Obligations.PackedHandled := by
  intro src pl s hr n nack notSent nacked
  have nackedEq (reason : Byte) : nackPacked src reason s = nacked reason := nackPacked_eq src reason s
  refine ⟨exec_packed_of_short hr, fun hl hq => ?_, fun before r after hl hq hn hlab hb hw => ?_,
    fun before r after hl hq hn hlab hb hw => ?_, fun hl hn h => ?_⟩
  · rw [exec_packed_of_named hr hl, packedNamed_of_unknown hq]
    exact congrArg _ (nackedEq 3)
  · have hn : r.number = numberAt pl 1 2 := hn
    have hb : ∀ x ∈ before, x.number ≠ r.number ∧ x.state ≠ .labelled := fun x hx => by rw [hn]; exact hb x hx
    rw [exec_packed_of_named hr hl, ← hn, packedNamed_of_oldest hq hlab hb, packOldest_eq hq (fun x hx => (hb x hx).1),
      roomMade_of_other (by exact hw)]
    rfl
  · intro shorter cutreq going exits
    have hn : r.number = numberAt pl 1 2 := hn
    have hb : ∀ x ∈ before, x.number ≠ r.number ∧ x.state ≠ .labelled := fun x hx => by rw [hn]; exact hb x hx
    have goingEq : cutWithRoom (s.packedOut (before ++ after) r.length) = going := cutWithRoom_eq _
    have runs : exec (.packed src pl) s = .next (creepExit going) := by
      rw [exec_packed_of_named hr hl, ← hn, packedNamed_of_oldest hq hlab hb,
        packOldest_eq hq (fun x hx => (hb x hx).1), roomMade_of_waiting (by exact hw), goingEq]
    have mayExit : going.mayExitCreep ↔ exits := by
      simp only [going, State.mayExitCreep]
      split
      · exact ⟨fun h => ⟨h.1, h.2.1⟩, fun h => ⟨h.1, h.2, by simp⟩⟩
      · exact ⟨fun h => ⟨h.1, h.2.1⟩, fun h => ⟨h.1, h.2, by simp⟩⟩
    have latch : going.store.latchPending = s.store.latchPending := by
      simp only [going]
      split <;> rfl
    refine ⟨fun he => ?_, fun he hlatch => ?_, fun he hlatch => ?_⟩
    · rw [runs, creepExit_of_not (mt mayExit.1 he)]
    · rw [runs, creepExit_of_free (mayExit.2 he) (by rwa [latch])]
    · rw [runs, creepExit_of_halt (mayExit.2 he) (by rwa [latch])]
  · rw [exec_packed_of_named hr hl, packedNamed_of_other hn h]
    exact congrArg (fun x => Host.Outcome.next (raise .packOrder (some n) 1 0 x)) (nackedEq 2)

end Sys2Proof.Machine

/-! The closing CUTDONE (5.4, R97 to R99, R115, R116): the close, the product of the next coil, its presets and its
cut, stage by stage, and the statement. -/

namespace Sys2Proof.Machine

/-! ## Cutting and overlength as changes of the open coil (R91, R94) -/

/-- R94: the state a cut request leaves the open coil in. -/
def State.cutState (s : State) : CoilState :=
  if 16 ≤ s.coil.queue.length then .cutWaitRoom else if s.iqdHeld < 4 then .cutting else .cutWaitSend

/-- R94 step 3: the IQD entries a cut request makes. -/
def State.cutreqs (s : State) : List InjFrame :=
  if s.coil.queue.length < 16 ∧ s.iqdHeld < 4 then
    [{ frame := { dst := s.tables.addressOf .cutter 127, src := s.ownAddress, kind := 9,
                  payload := enc2 s.coil.openCoil.number }, mark := .plain }]
  else []

theorem cutRequest_spec (s : State) :
    (cutRequest s).coil = { s.coil with openCoil.state := s.cutState }
    ∧ (cutRequest s).store.iqd = s.store.iqd ++ s.cutreqs
    ∧ (cutRequest s).faults.counters[11]? = s.faults.counters[11]? := by
  rcases Nat.lt_or_ge s.coil.queue.length 16 with hq | hq
  · rcases Nat.lt_or_ge s.iqdHeld 4 with hi | hi
    · have state : s.cutState = .cutting := by simp [State.cutState, Nat.not_le.2 hq, hi]
      have entries : s.cutreqs = [_] := if_pos ⟨hq, hi⟩
      rw [cutRequest_of_sendable hq hi, state, entries]
      exact ⟨rfl, rfl, rfl⟩
    · have state : s.cutState = .cutWaitSend := by simp [State.cutState, Nat.not_le.2 hq, Nat.not_lt.2 hi]
      have entries : s.cutreqs = [] := if_neg (by omega)
      rw [cutRequest_of_no_entry hq hi, state, entries]
      exact ⟨rfl, (List.append_nil _).symm, rfl⟩
  · have state : s.cutState = .cutWaitRoom := if_pos hq
    have entries : s.cutreqs = [] := if_neg (by omega)
    rw [cutRequest_of_full hq, state, entries, raise_coil rfl, raise_counters]
    simp [FaultKind.number, setOpenState]

theorem examineOverlength_spec {s : State} (h : s.coil.openCoil.state ≠ .cutting)
    (hn : s.coil.openCoil.overlengthNoted = false) :
    (examineOverlength s).coil = { s.coil with
      openCoil.overlengthNoted :=
        decide (s.product.coilTarget + s.product.overlengthLimit < s.coil.openCoil.length) }
    ∧ (examineOverlength s).faults.counters[11]? = s.faults.counters[11]? := by
  rw [examineOverlength_of_not_cutting h]
  by_cases hl : s.product.coilTarget + s.product.overlengthLimit < s.coil.openCoil.length
  · rw [if_pos ⟨hn, hl⟩, raise_coil rfl, raise_counters, decide_eq_true hl]
    simp [FaultKind.number]
  · rw [if_neg (fun h => hl h.2), decide_eq_false hl, ← hn]
    exact ⟨rfl, rfl⟩

/-! ## The presets of a coil open (R26 to R30, R99 step 5) -/

theorem presetCoil_of_short {s : State}
    (h : s.product.cutLead + s.coil.openCoil.length < s.product.coilTarget) : (presetCoil s).tally.coil =
      OneShot.start (s.product.coilTarget - (s.product.cutLead + s.coil.openCoil.length)) :=
  if_pos h

theorem presetCoil_of_reached {s : State}
    (h : s.product.coilTarget ≤ s.product.cutLead + s.coil.openCoil.length) : (presetCoil s).tally.coil =
      OneShot.exhausted (s.product.cutLead + s.coil.openCoil.length - s.product.coilTarget) :=
  if_neg (Nat.not_lt.2 h)

theorem presetAtOpen_tally (changed : Bool) (s : State) :
    (presetAtOpen changed s).tally.coil = (presetCoil s).tally.coil
    ∧ (presetAtOpen changed s).tally.mark = (presetMark s).tally.mark
    ∧ (presetAtOpen changed s).tally.window =
        (if changed then s.tally.window.start s.product.layWindow else s.tally.window)
    ∧ (presetAtOpen changed s).tally.windowLength = (if changed then 0 else s.tally.windowLength)
    ∧ (presetAtOpen changed s).tally.loaded = (changed || s.tally.loaded) := by
  cases changed <;> exact ⟨rfl, rfl, rfl, rfl, rfl⟩

theorem presetAtOpen_head (changed : Bool) (s : State) (u : HeadUnit) :
    (presetAtOpen changed s).head u = { s.head u with driftWindows := 0 } := by
  rw [presetAtOpen, clearDriftWindows_head]
  cases changed <;> rfl

/-! ## The opening of a coil with its product (R99 steps 5 to 7) -/

/-- R99 steps 5 to 7: the presets, the overlength examination, and the cut of a coil that is already long enough. -/
def opened (changed : Bool) (s : State) : State := handImmediate (examineOverlength (presetAtOpen changed s))

theorem handImmediate_of_short {s : State} (h : s.tally.coil.preset ≠ 0) : handImmediate s = s :=
  if_neg h

theorem handImmediate_of_reached {s : State} (h : s.tally.coil.preset = 0)
    (ho : s.coil.openCoil.state = .opened) :
    handImmediate s = cutRequest { s with coil.openCoil.cutLag := s.tally.coil.excess } :=
  (if_pos h).trans (coilUnderflowed_of_opened ho)

/-- R91: the open coil after the overlength examination of a coil open. -/
def State.examinedCoil (s : State) : CoilJob := { s.coil with
  openCoil.overlengthNoted :=
    decide (s.product.coilTarget + s.product.overlengthLimit < s.coil.openCoil.length) }

section opened
variable {s : State} (changed : Bool) (ho : s.coil.openCoil.state = .opened)
  (hn : s.coil.openCoil.overlengthNoted = false)
include ho hn

theorem examined_spec :
    (examineOverlength (presetAtOpen changed s)).coil = s.examinedCoil
    ∧ (examineOverlength (presetAtOpen changed s)).faults.counters[11]? = s.faults.counters[11]? := by
  have product : (presetAtOpen changed s).product = s.product := by simp [State.product]
  obtain ⟨coil, counters⟩ := examineOverlength_spec (s := presetAtOpen changed s) (by simp [ho]) (by simp [hn])
  rw [coil, counters, product]
  simp [State.examinedCoil]

/-- R99 step 7: a coil open whose coil does not yet reach its preset. -/
theorem opened_of_short (h : s.product.cutLead + s.coil.openCoil.length < s.product.coilTarget) :
    (opened changed s).coil = s.examinedCoil ∧ (opened changed s).store.iqd = s.store.iqd
    ∧ (opened changed s).faults.counters[11]? = s.faults.counters[11]?
    ∧ (opened changed s).tally.coil =
        OneShot.start (s.product.coilTarget - (s.product.cutLead + s.coil.openCoil.length)) := by
  have preset : (examineOverlength (presetAtOpen changed s)).tally.coil =
      OneShot.start (s.product.coilTarget - (s.product.cutLead + s.coil.openCoil.length)) := by
    rw [← presetCoil_of_short h, ← (presetAtOpen_tally changed s).1]
    simp
  have nonzero : (examineOverlength (presetAtOpen changed s)).tally.coil.preset ≠ 0 := by
    rw [preset]
    exact Nat.sub_ne_zero_of_lt h
  obtain ⟨coil, counters⟩ := examined_spec changed ho hn
  rw [opened, handImmediate_of_short nonzero, coil, counters, preset]
  simp

/-- R99 step 7: a coil open whose coil is cut at once. -/
theorem opened_of_reached (h : s.product.coilTarget ≤ s.product.cutLead + s.coil.openCoil.length) :
    (opened changed s).coil = { s.examinedCoil with
      openCoil.cutLag := s.product.cutLead + s.coil.openCoil.length - s.product.coilTarget
      openCoil.state := s.cutState }
    ∧ (opened changed s).store.iqd = s.store.iqd ++ s.cutreqs
    ∧ (opened changed s).faults.counters[11]? = s.faults.counters[11]?
    ∧ (opened changed s).tally.coil =
        OneShot.exhausted (s.product.cutLead + s.coil.openCoil.length - s.product.coilTarget) := by
  have preset : (examineOverlength (presetAtOpen changed s)).tally.coil =
      OneShot.exhausted (s.product.cutLead + s.coil.openCoil.length - s.product.coilTarget) := by
    rw [← presetCoil_of_reached h, ← (presetAtOpen_tally changed s).1]
    simp
  obtain ⟨coil, counters⟩ := examined_spec changed ho hn
  have stillOpen : (examineOverlength (presetAtOpen changed s)).coil.openCoil.state = .opened := by simp [ho]
  let y : State := { examineOverlength (presetAtOpen changed s) with
    coil.openCoil.cutLag := (examineOverlength (presetAtOpen changed s)).tally.coil.excess }
  have yCoil : y.coil = { s.examinedCoil with
      openCoil.cutLag := s.product.cutLead + s.coil.openCoil.length - s.product.coilTarget } := by
    simp only [y, coil, preset]
    rfl
  have yStore : y.store.iqd = s.store.iqd := by simp [y]
  have yHeld : y.iqdHeld = s.iqdHeld := by simp [State.iqdHeld, y]
  have yQueue : y.coil.queue = s.coil.queue := by rw [yCoil]; rfl
  have yState : y.cutState = s.cutState := by rw [State.cutState, yHeld, yQueue]; rfl
  have yEntries : y.cutreqs = s.cutreqs := by
    have tables : y.tables = s.tables := by simp [y]
    have own : y.ownAddress = s.ownAddress := by simp [y]
    have number : y.coil.openCoil.number = s.coil.openCoil.number := by rw [yCoil]; rfl
    rw [State.cutreqs, State.cutreqs, yHeld, yQueue, tables, own, number]
  have reached : opened changed s = cutRequest y :=
    handImmediate_of_reached (by rw [preset]; rfl) stillOpen
  obtain ⟨cutCoil, cutIqd, cutCounters⟩ := cutRequest_spec y
  rw [reached, cutCoil, cutIqd, cutCounters, yCoil, yStore, yState, yEntries]
  refine ⟨rfl, rfl, counters, ?_⟩
  have kept : (cutRequest y).tally.coil = y.tally.coil := by simp
  exact kept.trans preset

end opened

/-- R99 step 7: the cut lag a coil open leaves. -/
def State.openLag (s : State) : Nat :=
  if s.product.cutLead + s.coil.openCoil.length < s.product.coilTarget then s.coil.openCoil.cutLag
  else s.product.cutLead + s.coil.openCoil.length - s.product.coilTarget

/-- R99 step 7: the state a coil open leaves the coil in. -/
def State.openState (s : State) : CoilState :=
  if s.product.cutLead + s.coil.openCoil.length < s.product.coilTarget then s.coil.openCoil.state else s.cutState

theorem opened_coil {s : State} (changed : Bool) (ho : s.coil.openCoil.state = .opened)
    (hn : s.coil.openCoil.overlengthNoted = false) :
    (opened changed s).coil =
      { s.examinedCoil with openCoil.cutLag := s.openLag, openCoil.state := s.openState }
    ∧ (opened changed s).faults.counters[11]? = s.faults.counters[11]? := by
  rcases Nat.lt_or_ge (s.product.cutLead + s.coil.openCoil.length) s.product.coilTarget with h | h
  · obtain ⟨coil, -, counters, -⟩ := opened_of_short changed ho hn h
    rw [coil, State.openLag, State.openState, if_pos h, if_pos h]
    exact ⟨rfl, counters⟩
  · obtain ⟨coil, -, counters, -⟩ := opened_of_reached changed ho hn h
    rw [coil, State.openLag, State.openState, if_neg (Nat.not_lt.2 h), if_neg (Nat.not_lt.2 h)]
    exact ⟨rfl, counters⟩

theorem opened_iqd {s : State} (changed : Bool) (ho : s.coil.openCoil.state = .opened)
    (hn : s.coil.openCoil.overlengthNoted = false) : (opened changed s).store.iqd = s.store.iqd ++
      if s.product.coilTarget ≤ s.product.cutLead + s.coil.openCoil.length then s.cutreqs else [] := by
  rcases Nat.lt_or_ge (s.product.cutLead + s.coil.openCoil.length) s.product.coilTarget with h | h
  · rw [(opened_of_short changed ho hn h).2.1, if_neg (Nat.not_le.2 h), List.append_nil]
  · rw [(opened_of_reached changed ho hn h).2.1, if_pos h]

theorem opened_tally (changed : Bool) (s : State) :
    (opened changed s).tally.mark = (presetMark s).tally.mark
    ∧ (opened changed s).tally.window = (if changed then s.tally.window.start s.product.layWindow else s.tally.window)
    ∧ (opened changed s).tally.windowLength = (if changed then 0 else s.tally.windowLength)
    ∧ (opened changed s).tally.loaded = (changed || s.tally.loaded)
    ∧ (opened changed s).tally.haulTotal = s.tally.haulTotal
    ∧ (opened changed s).tally.packedTotal = s.tally.packedTotal
    ∧ (opened changed s).tally.cutwait = s.tally.cutwait ∧ (opened changed s).mesh = s.mesh := by
  obtain ⟨-, mark, window, windowLength, loaded⟩ := presetAtOpen_tally changed s
  simp [opened, mark, window, windowLength, loaded]

theorem opened_head (changed : Bool) (s : State) (u : HeadUnit) :
    (opened changed s).head u = { s.head u with driftWindows := 0 } := by
  have lay : (opened changed s).lay = (presetAtOpen changed s).lay := by simp [opened]
  rw [State.head, lay]
  exact presetAtOpen_head changed s u

/-! ## The product of the next coil (R115, R116) -/

theorem State.changesOver_iff (s : State) :
    s.changesOver = true ↔ ∃ i, s.coil.next = some i ∧ examineProduct s.tables i = none := by
  unfold State.changesOver
  cases s.coil.next <;> simp

theorem chooseProduct_of_none {s : State} (h : s.coil.next = none) : chooseProduct s = setOpenProduct s := by
  simp only [chooseProduct, h]

theorem chooseProduct_of_refused {s : State} {i : Slot} (h : s.coil.next = some i)
    (he : examineProduct s.tables i ≠ none) : chooseProduct s = refuseChangeover s := by
  have stays : ¬s.changesOver = true := by
    rw [s.changesOver_iff]
    rintro ⟨j, hj, hn⟩
    cases h.symm.trans hj
    exact he hn
  simp only [chooseProduct, h, if_neg stays]

theorem chooseProduct_of_applied {s : State} {i : Slot} (h : s.coil.next = some i)
    (he : examineProduct s.tables i = none) : chooseProduct s = applyChangeover i s := by
  simp only [chooseProduct, h, if_pos (s.changesOver_iff.2 ⟨i, h, he⟩)]

/-- R115: the product the next coil is of. -/
def State.nextProduct (s : State) : ProductRow :=
  match s.coil.next with
  | none => s.product
  | some i => if examineProduct s.tables i = none then s.tables.product i else s.product

theorem chooseProduct_product (s : State) : (chooseProduct s).product = s.nextProduct := by
  unfold State.nextProduct
  cases h : s.coil.next with
  | none => rw [chooseProduct_of_none h]; rfl
  | some i =>
    by_cases he : examineProduct s.tables i = none
    · rw [chooseProduct_of_applied h he]
      simp [applyChangeover, State.product, setOpenProduct, he]
    · rw [chooseProduct_of_refused h he]
      simp [refuseChangeover, State.product, setOpenProduct, he]

end Sys2Proof.Machine

/-! The closing CUTDONE as a whole (R97 to R99, R115, R116). -/

namespace Sys2Proof.Machine

/-! ## The coil closed and the next one made (R98, R99 steps 1 to 4) -/

/-- R98 steps 1 to 5: CUTWAIT stopped and the open coil closed at the end of the coil queue. -/
def State.closed (s : State) (cut : Nat) : State :=
  { stopCutwait s with coil.queue := s.coil.queue ++ [s.coil.openCoil.close s.product cut] }

theorem closeOpenCoil_eq (cut : Nat) (s : State) : closeOpenCoil cut s = servePending (s.closed cut) := rfl

/-- R98 step 6, R103: the close serves the pending TAKE. -/
def State.serves (s : State) : Prop := s.coil.pendingTake = true ∧ s.iqdHeld < 4

theorem closeOpenCoil_idle {s : State} (cut : Nat) (h : ¬s.serves) : closeOpenCoil cut s = s.closed cut :=
  servePending_idle _ h

theorem closeOpenCoil_serves {s : State} (cut : Nat) (h : s.serves) :
    closeOpenCoil cut s = sendLabel { s.closed cut with coil.pendingTake := false } :=
  servePending_serves _ h.1 h.2

theorem closeOpenCoil_queue_length (cut : Nat) (s : State) :
    (closeOpenCoil cut s).coil.queue.length = s.coil.queue.length + 1 := by
  have lengths : (servePending (s.closed cut)).coil.queue.length = (s.closed cut).coil.queue.length := by
    simpa only [List.length_map] using congrArg List.length (servePending_lengths (s.closed cut))
  rw [closeOpenCoil_eq, lengths]
  simp [State.closed]

theorem closeOpenCoil_cutwait (cut : Nat) (s : State) : (closeOpenCoil cut s).tally.cutwait = s.tally.cutwait.stop := by
  simp [closeOpenCoil_eq, State.closed, stopCutwait]

theorem closeOpenCoil_iqdHeld (cut : Nat) {s : State} {e : Nat} (hs : s.serves → e = 1) (hn : ¬s.serves → e = 0) :
    (closeOpenCoil cut s).iqdHeld = s.iqdHeld + e := by
  by_cases h : s.serves
  · rw [closeOpenCoil_serves cut h, hs h]
    simp only [State.iqdHeld, sendLabel, State.queueIqd, List.length_append, List.length_singleton]
    exact Nat.add_right_comm ..
  · rw [closeOpenCoil_idle cut h, hn h]
    rfl

/-- R99 steps 1 to 4: the new open coil, its product chosen and the defects kept for it in their places. -/
def State.fresh (s : State) (a : Nat) (kept : List Defect) : State :=
  placeDefects kept (chooseProduct (makeOpenCoil a s))

theorem openNewCoil_eq (a : Nat) (kept : List Defect) (s : State) :
    openNewCoil a kept s = opened s.changesOver (s.fresh a kept) := rfl

/-- R99 steps 1 to 4: the record of the new open coil. -/
def State.freshCoil (s : State) (a : Nat) (kept : List Defect) : CoilRecord :=
  { newCoil (nextNumber s.coil.counter) a s.tally.haulTotal with
    productId := s.nextProduct.productId
    net := decide (s.nextProduct.kind = .twineNet)
    defects := kept
    points := pointsOf kept }

section fresh
variable (s : State) (a : Nat) (kept : List Defect)

theorem State.fresh_product : (s.fresh a kept).product = s.nextProduct :=
  chooseProduct_product (makeOpenCoil a s)

theorem State.fresh_keeps : (s.fresh a kept).tables = s.tables ∧ (s.fresh a kept).ownAddress = s.ownAddress
    ∧ (s.fresh a kept).tally = s.tally ∧ (s.fresh a kept).store = s.store ∧ (s.fresh a kept).portD = s.portD
    ∧ (s.fresh a kept).faults = s.faults ∧ (s.fresh a kept).coil.queue = s.coil.queue
    ∧ (s.fresh a kept).coil.pendingTake = s.coil.pendingTake := by
  simp [State.fresh]

theorem State.fresh_of_none (h : s.coil.next = none) :
    (s.fresh a kept).coil = { s.coil with
      counter := nextNumber s.coil.counter, next := none, openCoil := s.freshCoil a kept }
    ∧ (s.fresh a kept).mesh = s.mesh ∧ (s.fresh a kept).lay = s.lay := by
  have product : s.nextProduct = s.product := by simp only [State.nextProduct, h]
  rw [State.fresh, chooseProduct_of_none (by exact h), State.freshCoil, product, ← h]
  exact ⟨rfl, rfl, rfl⟩

theorem State.fresh_of_refused {i : Slot} (h : s.coil.next = some i) (he : examineProduct s.tables i ≠ none) :
    (s.fresh a kept).coil = { s.coil with
      counter := nextNumber s.coil.counter, next := none
      refusedChangeovers := bump s.coil.refusedChangeovers, openCoil := s.freshCoil a kept }
    ∧ (s.fresh a kept).mesh = s.mesh ∧ (s.fresh a kept).lay = s.lay := by
  have product : s.nextProduct = s.product := by simp only [State.nextProduct, h, if_neg he]
  rw [State.fresh, chooseProduct_of_refused (by exact h) (by exact he), State.freshCoil, product]
  exact ⟨rfl, rfl, rfl⟩

theorem State.fresh_of_applied {i : Slot} (h : s.coil.next = some i) (he : examineProduct s.tables i = none) :
    (s.fresh a kept).coil = { s.coil with
      counter := nextNumber s.coil.counter, next := none, current := i, openCoil := s.freshCoil a kept }
    ∧ (s.fresh a kept).mesh = s.mesh.loadedFrom s.tables (s.tables.product i)
    ∧ ∀ u, (s.fresh a kept).head u = (s.head u).productStart (s.tables.layRow i u).inUse := by
  have product : s.nextProduct = s.tables.product i := by simp only [State.nextProduct, h, if_pos he]
  rw [State.fresh, chooseProduct_of_applied (by exact h) (by exact he), State.freshCoil, product]
  refine ⟨?_, ?_, fun u => ?_⟩
  · simp [placeDefects, applyChangeover, setOpenProduct, makeOpenCoil, State.product]
    rfl
  · exact loadCursor_mesh _
  · have lay (x : State) : (loadCursor x).lay = x.lay := by simp
    exact (congrArg (fun l => l.heads.getD u.val HeadRecord.cleared) (lay _)).trans (productStartHeads_head _ u)

/-- R99: whichever product it takes, the next coil has its record, and no change is staged. -/
theorem State.fresh_coil : (s.fresh a kept).coil.openCoil = s.freshCoil a kept ∧ (s.fresh a kept).coil.next = none := by
  cases h : s.coil.next with
  | none => rw [(s.fresh_of_none a kept h).1]; exact ⟨rfl, rfl⟩
  | some i =>
    by_cases he : examineProduct s.tables i = none
    · rw [(s.fresh_of_applied a kept h he).1]; exact ⟨rfl, rfl⟩
    · rw [(s.fresh_of_refused a kept h he).1]; exact ⟨rfl, rfl⟩

end fresh

/-! ## The after-cut length beyond the coil's (R98) -/

/-- R98 step 2: the mismatch raised, where there is one. -/
def afterMismatch (mismatch : Prop) [Decidable mismatch] (number : Nat) (s : State) : State :=
  if mismatch then raise .cutMismatch (some number) 1 0 s else s

theorem closeAndOpen_eq (after : Nat) (s : State) : closeAndOpen after s =
    afterMismatch (s.coil.openCoil.length < after) s.coil.openCoil.number
      (openNewCoil (min after s.coil.openCoil.length)
        (movedDefects (s.coil.openCoil.length - min after s.coil.openCoil.length) s.coil.openCoil.defects)
        (closeOpenCoil (s.coil.openCoil.length - min after s.coil.openCoil.length) s)) := rfl

theorem afterMismatch_keeps (mismatch : Prop) [Decidable mismatch] (number : Nat) (s : State) :
    (afterMismatch mismatch number s).coil = s.coil ∧ (afterMismatch mismatch number s).mesh = s.mesh
    ∧ (afterMismatch mismatch number s).lay = s.lay
    ∧ (afterMismatch mismatch number s).store.iqd = s.store.iqd
    ∧ (afterMismatch mismatch number s).tally.coil = s.tally.coil
    ∧ (afterMismatch mismatch number s).tally.mark = s.tally.mark
    ∧ (afterMismatch mismatch number s).tally.window = s.tally.window
    ∧ (afterMismatch mismatch number s).tally.windowLength = s.tally.windowLength
    ∧ (afterMismatch mismatch number s).tally.loaded = s.tally.loaded
    ∧ (afterMismatch mismatch number s).tally.haulTotal = s.tally.haulTotal
    ∧ (afterMismatch mismatch number s).tally.packedTotal = s.tally.packedTotal
    ∧ (afterMismatch mismatch number s).tally.cutwait = s.tally.cutwait := by
  unfold afterMismatch
  split
  · refine ⟨raise_coil rfl .., ?_⟩
    simp
  · simp

theorem afterMismatch_counter (mismatch : Prop) [Decidable mismatch] (number : Nat) (s : State) :
    (mismatch → (afterMismatch mismatch number s).faults.counters[11]? = s.faults.counters[11]?.map bump)
    ∧ (¬mismatch → (afterMismatch mismatch number s).faults.counters[11]? = s.faults.counters[11]?) := by
  refine ⟨fun h => ?_, fun h => ?_⟩
  · rw [afterMismatch, if_pos h, raise_counters]
    simp [FaultKind.number]
  · rw [afterMismatch, if_neg h]

/-! ## The statement -/

theorem HeadRecord.productStart_eq (h : HeadRecord) (inUse : Bool) : h.productStart inUse =
    if h.state = .broken then { h with windowSum := 0, reports := 0, driftWindows := 0 }
    else { h with
      state := if inUse then .settling else .unused, windowSum := 0, reports := 0, lowRun := 0, driftWindows := 0 } := by
  unfold HeadRecord.productStart
  split <;> rfl

/-- Settles O26, through the coil that is closed, the fresh one, and what its opening makes of it. -/
theorem cutdoneCloses : Obligations.CutdoneCloses := by
  intro pl s hr hl hnumber hstate c a cut removed gradeFor kept used changes taken loaded started serves entries label
    number cutreqs
  let shut := closeOpenCoil cut s
  let x := shut.fresh a kept
  let y := opened shut.changesOver x
  let t := afterMismatch (c.length < numberAt pl 3 2) c.number y
  have runs : exec (.cutdone pl) s = .next t :=
    exec_cutdone_of_answers hr hl ((s.answers_iff _).2 ⟨hnumber, hstate⟩)
  obtain ⟨tCoil, tMesh, tLay, tIqd, tCoilCounter, tMark, tWindow, tWindowLength, tLoaded, tHaul, tPacked, tCutwait⟩ :=
    afterMismatch_keeps (c.length < numberAt pl 3 2) c.number y
  obtain ⟨xTables, xOwn, xTally, xStore, xPortD, xFaults, xQueue, xPending⟩ := shut.fresh_keeps a kept
  obtain ⟨xOpen, xNext⟩ := shut.fresh_coil a kept
  have shutTables : shut.tables = s.tables := by simp [shut]
  have shutNext : shut.coil.next = s.coil.next := by simp [shut]
  have shutProduct : shut.product = s.product := by simp [shut, State.product]
  have shutQueue : shut.coil.queue.length = s.coil.queue.length + 1 := closeOpenCoil_queue_length cut s
  have shutHeld : shut.iqdHeld = entries :=
    closeOpenCoil_iqdHeld cut (fun h => if_pos h) (fun h => if_neg h)
  have changesIff : shut.changesOver = true ↔ changes := by
    rw [State.changesOver_iff, shutNext, shutTables]
  have xProduct : x.product = used := by
    rw [shut.fresh_product a kept, State.nextProduct, shutNext, shutTables, shutProduct] <;> rfl
  have xHeld : x.iqdHeld = entries := by
    rw [State.iqdHeld, xStore, xPortD]
    exact shutHeld
  have xTaken : x.product.cutLead + x.coil.openCoil.length = taken := by
    rw [xProduct, xOpen]
    rfl
  have xState : x.coil.openCoil.state = .opened := congrArg CoilRecord.state xOpen
  have xNoted : x.coil.openCoil.overlengthNoted = false := congrArg CoilRecord.overlengthNoted xOpen
  have xNumber : x.coil.openCoil.number = number := by
    rw [xOpen]
    show nextNumber shut.coil.counter = _
    simp [shut, nextNumber, number]
  have xCutState : x.cutState =
      if 15 ≤ s.coil.queue.length then .cutWaitRoom else if entries < 4 then .cutting else .cutWaitSend := by
    rw [State.cutState, xQueue, shutQueue, xHeld]
    exact ite_congr (propext Nat.succ_le_succ_iff) (fun _ => rfl) (fun _ => rfl)
  have xCutreqs : (if x.product.coilTarget ≤ x.product.cutLead + x.coil.openCoil.length then x.cutreqs else []) =
      cutreqs := by
    have room : x.coil.queue.length < 16 ↔ s.coil.queue.length < 15 := by rw [xQueue, shutQueue]; omega
    have tables : x.tables = s.tables := xTables.trans shutTables
    have own : x.ownAddress = s.ownAddress := xOwn.trans (by simp [shut])
    rw [xTaken, xProduct, State.cutreqs, xHeld, xNumber, tables, own]
    simp only [room, cutreqs]
    by_cases h : used.coilTarget ≤ taken
    · simp only [h, if_true, true_and]
    · simp only [h, if_false, false_and]
  obtain ⟨yCoil, yCounters⟩ := opened_coil (s := x) shut.changesOver xState xNoted
  have tOpen : t.coil.openCoil = { shut.freshCoil a kept with
      overlengthNoted := decide (used.coilTarget + used.overlengthLimit < a)
      cutLag := x.openLag
      state := x.openState } := by
    rw [tCoil, yCoil, State.examinedCoil, xOpen, xProduct]
    rfl
  have tIqdEq : t.store.iqd = shut.store.iqd ++ cutreqs := by
    rw [tIqd, opened_iqd shut.changesOver xState xNoted, xCutreqs, xStore]
  have tQueue : t.coil.queue = shut.coil.queue := by rw [tCoil, yCoil]; exact xQueue
  have tPending : t.coil.pendingTake = shut.coil.pendingTake := by rw [tCoil, yCoil]; exact xPending
  obtain ⟨yMark, yWindow, yWindowLength, yLoaded, yHaul, yPacked, yCutwait, yMesh⟩ := opened_tally shut.changesOver x
  have tHead (u : HeadUnit) : t.head u = { x.head u with driftWindows := 0 } := by
    rw [← opened_head shut.changesOver, State.head, tLay]
    rfl
  have stays (h : ¬changes) : shut.changesOver = false := by
    rw [← Bool.not_eq_true]
    exact mt changesIff.1 h
  have shutCounter : shut.faults.counters[11]? = s.faults.counters[11]? := by simp [shut]
  have yCounter : y.faults.counters[11]? = s.faults.counters[11]? := by
    rw [yCounters, xFaults, shutCounter]
  have mismatchCounter := afterMismatch_counter (c.length < numberAt pl 3 2) c.number y
  have xKept (h : ¬changes) : x.mesh = shut.mesh ∧ x.lay = shut.lay := by
    cases hn : s.coil.next with
    | none => exact (shut.fresh_of_none a kept (shutNext.trans hn)).2
    | some i =>
      have refused : examineProduct shut.tables i ≠ none := by
        rw [shutTables]
        exact fun he => h ⟨i, hn, he⟩
      exact (shut.fresh_of_refused a kept (shutNext.trans hn) refused).2
  have usedOfNone (h : s.coil.next = none) : used = s.product := by simp only [used, h]
  have nextUsed : shut.nextProduct = used := (shut.fresh_product a kept).symm.trans xProduct
  refine ⟨t, s.coil.openCoil.close s.product cut, runs, rfl, fun h => if_pos h, fun h => ?_,
    fun before r after h hq hb hrs => ?_, ?_⟩
  · have idle : shut = s.closed cut := closeOpenCoil_idle cut h
    rw [tQueue, tPending, tIqdEq, idle]
    exact ⟨rfl, rfl, rfl⟩
  · have labelled : shut = _ := (closeOpenCoil_serves cut h).trans (sendLabel_of_oldest (by exact hq) hb hrs)
    rw [tQueue, tPending, tIqdEq, labelled]
    exact ⟨rfl, rfl, List.append_assoc ..⟩
  rw [tOpen]
  refine ⟨(congrArg CoilRecord.number xOpen).symm.trans xNumber, rfl, ?_, rfl, rfl, rfl, rfl, rfl, rfl, fun h => ?_,
    fun h => ?_, ?_, fun h => ?_, fun h => ?_, fun h => ?_, fun h => ?_, rfl, rfl, rfl, rfl, ?_, ?_, ?_, ?_, fun h => ?_, ?_, fun h => ?_,
    fun i h he => ?_, fun i h he => ?_⟩
  · show shut.tally.haulTotal - a = _
    simp [shut]
  · have short : x.product.cutLead + x.coil.openCoil.length < x.product.coilTarget := by rwa [xTaken, xProduct]
    obtain ⟨-, -, -, preset⟩ := opened_of_short shut.changesOver xState xNoted short
    rw [tCoilCounter]
    refine ⟨(if_pos short).trans xState, (if_pos short).trans (congrArg CoilRecord.cutLag xOpen), preset.trans ?_⟩
    rw [xTaken, xProduct]
    rfl
  · have reached : x.product.coilTarget ≤ x.product.cutLead + x.coil.openCoil.length := by rwa [xTaken, xProduct]
    obtain ⟨-, -, -, preset⟩ := opened_of_reached shut.changesOver xState xNoted reached
    rw [tCoilCounter]
    refine ⟨(if_neg (Nat.not_lt.2 reached)).trans ?_, preset.trans ?_,
      (if_neg (Nat.not_lt.2 reached)).trans xCutState⟩
    · rw [xTaken, xProduct]
    · rw [xTaken, xProduct]
      rfl
  · have mark : shut.tally.mark = s.tally.mark := by simp [shut]
    rw [tMark, yMark, presetMark, xProduct, xTally, mark]
    rfl
  · rw [tWindow, tWindowLength, yWindow, yWindowLength, stays h, xTally]
    simp [shut]
  · have window : shut.tally.window = s.tally.window := by simp [shut]
    rw [tWindow, tWindowLength, yWindow, yWindowLength, changesIff.2 h, xTally, xProduct, window]
    exact ⟨rfl, rfl⟩
  · exact (mismatchCounter.1 h).trans (congrArg _ yCounter)
  · exact (mismatchCounter.2 (Nat.not_lt.2 h)).trans yCounter
  · rw [tHaul, yHaul, xTally]
    simp [shut]
  · rw [tPacked, yPacked, xTally]
    simp [shut]
  · rw [tCutwait, yCutwait, xTally, closeOpenCoil_cutwait]
    rfl
  · rw [tCutwait, yCutwait, xTally, closeOpenCoil_cutwait]
    rfl
  · obtain ⟨mesh, lay⟩ := xKept h
    refine ⟨?_, fun u => ?_⟩
    · rw [tMesh, yMesh, mesh]
      simp [shut]
    · rw [tHead, State.head, lay]
      simp [shut, State.head]
  · rw [tCoil, yCoil]
    exact xNext
  · have coil := (shut.fresh_of_none a kept (shutNext.trans h)).1
    have used : shut.nextProduct = s.product := nextUsed.trans (usedOfNone h)
    rw [tCoil, yCoil]
    refine ⟨?_, ?_, ?_, ?_⟩
    · show x.coil.current = _
      rw [coil]
      simp [shut]
    · exact congrArg ProductRow.productId used
    · exact congrArg (fun p : ProductRow => decide (p.kind = .twineNet)) used
    · show x.coil.refusedChangeovers = _
      rw [coil]
      simp [shut]
  · have coil := (shut.fresh_of_refused a kept (shutNext.trans h) (by rwa [shutTables])).1
    have used : shut.nextProduct = s.product := nextUsed.trans (by simp only [used, h, if_neg he])
    rw [tCoil, yCoil]
    refine ⟨?_, ?_, ?_, ?_⟩
    · show x.coil.current = _
      rw [coil]
      simp [shut]
    · exact congrArg ProductRow.productId used
    · exact congrArg (fun p : ProductRow => decide (p.kind = .twineNet)) used
    · show x.coil.refusedChangeovers = _
      rw [coil]
      simp [shut]
  · obtain ⟨coil, mesh, heads⟩ := shut.fresh_of_applied a kept (shutNext.trans h) (by rwa [shutTables])
    have used : shut.nextProduct = s.tables.product i := nextUsed.trans (by simp only [used, h, if_pos he])
    rw [tCoil, yCoil]
    refine ⟨?_, ?_, ?_, ?_, ?_, fun u => ?_, ?_⟩
    · show x.coil.current = _
      rw [coil]
    · exact congrArg ProductRow.productId used
    · exact congrArg (fun p : ProductRow => decide (p.kind = .twineNet)) used
    · show x.coil.refusedChangeovers = _
      rw [coil]
      simp [shut]
    · have shutMesh : shut.mesh = s.mesh := by simp [shut]
      rw [tMesh, yMesh, mesh, shutMesh, shutTables, Mesh.loadedFrom]
      simp only [loaded]
      cases (s.tables.product i).kind <;> rfl
    · have shutHead : shut.head u = s.head u := by simp [shut, State.head]
      rw [tHead, heads, HeadRecord.productStart_eq, shutHead, shutTables]
      simp only [started]
      split <;> rfl
    · rw [tLoaded, yLoaded, changesIff.2 ⟨i, h, he⟩]
      rfl

end Sys2Proof.Machine

/-! Fault dispatch (7.1, 7.2, R121 to R132): an occurrence entered in the fault list and its mode request on their
branches, and the statement about one occurrence. -/

namespace Sys2Proof.Machine

/-! ## Mode requests on their branches (R12, R13) -/

theorem creepRequest_of_run {s : State} (h : s.mode = .run) :
    creepRequest s = { s with mode := .creep }.setLatch .creep := by
  simp only [creepRequest, h]

theorem creepRequest_of_other {s : State} (h : s.mode ≠ .run) : creepRequest s = s := by
  unfold creepRequest
  split <;> first | rfl | contradiction

theorem haltRequest_latch (s : State) : (haltRequest s).store.latchPending = some .halt := by
  unfold haltRequest
  split <;> simp [stopHaulwatch]

theorem haltRequest_of_moving {s : State} (h : s.mode = .threading ∨ s.mode = .run ∨ s.mode = .creep) :
    haltRequest s = stopHaulwatch ({ s with mode := .halted }.setLatch .halt) := by
  rcases h with h | h | h <;> simp only [haltRequest, h]

/-! ## An occurrence entered (R124 steps 4 and 5, R126, R127) -/

theorem FaultRecord.isOf_iff (r : FaultRecord) (k : FaultKind) (src : Option Nat) :
    r.isOf k src = true ↔ r.kind = k ∧ r.source = src := by
  simp [FaultRecord.isOf]

theorem anyIsOf_iff (l : List FaultRecord) (k : FaultKind) (src : Option Nat) :
    l.any (fun r => r.isOf k src) = true ↔ ∃ r ∈ l, r.kind = k ∧ r.source = src := by
  simp only [List.any_eq_true, FaultRecord.isOf_iff]

theorem enterOccurrence_of_listed {o : Occurrence} {c : FaultClass} {s : State}
    (h : ∃ r ∈ s.faults.list, r.kind = o.kind ∧ r.source = o.source) : enterOccurrence o c s =
      { s with faults.list :=
        s.faults.list.map (fun r => if r.kind = o.kind ∧ r.source = o.source then r.coalesce o c else r) } := by
  rw [enterOccurrence, if_pos ((anyIsOf_iff ..).2 h)]
  simp only [FaultRecord.isOf_iff]

theorem enterOccurrence_of_full {o : Occurrence} {c : FaultClass} {s : State}
    (h : ∀ r ∈ s.faults.list, ¬(r.kind = o.kind ∧ r.source = o.source)) (hl : 16 ≤ s.faults.list.length) :
    enterOccurrence o c s = { s with faults.overflow := bump s.faults.overflow } := by
  rw [enterOccurrence, if_neg (by rw [anyIsOf_iff]; rintro ⟨r, hr, he⟩; exact h r hr he), if_neg (by omega)]

/-- R126: the state with the record of a new occurrence at the end of the list. -/
def State.listed (s : State) (o : Occurrence) (c : FaultClass) : State := { s with
  faults.list := s.faults.list ++ [newRecord s.faults.nextIdentity o c]
  faults.nextIdentity := s.faults.nextIdentity + 1 }

theorem enterOccurrence_of_new {o : Occurrence} {c : FaultClass} {s : State}
    (h : ∀ r ∈ s.faults.list, ¬(r.kind = o.kind ∧ r.source = o.source)) (hl : s.faults.list.length < 16) :
    enterOccurrence o c s = sendAlarms (s.listed o c) := by
  rw [enterOccurrence, if_neg (by rw [anyIsOf_iff]; rintro ⟨r, hr, he⟩; exact h r hr he), if_pos hl]
  rfl

/-! ## The record of a new occurrence (R126 to R130) -/

theorem FaultRecord.waits_iff (r : FaultRecord) : r.waits = true ↔ r.notified = false ∧ r.queued = false := by
  simp [FaultRecord.waits]

/-- R129: the flag the sending examination sets. -/
def FaultRecord.queuedIf (r : FaultRecord) (q : Prop) [Decidable q] : FaultRecord :=
  if q then { r with queued := true } else r

theorem FaultRecord.queuedIf_unqueued (r : FaultRecord) (q : Prop) [Decidable q] :
    ({ r.queuedIf q with queued := false } : FaultRecord) = { r with queued := false } := by
  unfold FaultRecord.queuedIf
  split <;> rfl

section new
variable (s : State) (o : Occurrence) (c : FaultClass)

/-- R130: the records served once the new one is listed. -/
def State.servedNew : List FaultRecord := servedBy (s.listed o c).faults.list (s.listed o c)

theorem sendAlarms_listed : sendAlarms (s.listed o c) = alarmsQueued (s.servedNew o c) (s.listed o c) :=
  sendAlarms_served _

/-- R129: the new record as the sending examination leaves it. -/
def State.lastRecord : FaultRecord := (newRecord s.faults.nextIdentity o c).queuedIf
  (s.faults.nextIdentity ∈ (s.servedNew o c).map FaultRecord.identity)

theorem sendAlarms_listed_list : (sendAlarms (s.listed o c)).faults.list =
    s.faults.list.map (fun r => r.queuedIf (r.identity ∈ (s.servedNew o c).map FaultRecord.identity))
      ++ [s.lastRecord o c] := by
  rw [sendAlarms_listed]
  exact List.map_append

theorem State.lastRecord_fields : (s.lastRecord o c).kind = o.kind ∧ (s.lastRecord o c).source = o.source
    ∧ (s.lastRecord o c).classTaken = c ∧ (s.lastRecord o c).count = 1 ∧ (s.lastRecord o c).first = o.stamp
    ∧ (s.lastRecord o c).last = o.stamp ∧ (s.lastRecord o c).notified = false
    ∧ (s.lastRecord o c).identity = s.faults.nextIdentity := by
  unfold State.lastRecord FaultRecord.queuedIf
  split <;> exact ⟨rfl, rfl, rfl, rfl, rfl, rfl, rfl, rfl⟩

/-- R130: where no older record waits and IQU has room, the new record alone is served. -/
theorem State.servedNew_of_alone (hi : s.iquHeld < 4)
    (h : ∀ x ∈ s.faults.list, x.notified = true ∨ x.queued = true) :
    s.servedNew o c = [newRecord s.faults.nextIdentity o c] := by
  have idle : s.faults.list.filter FaultRecord.waits = [] := by
    refine List.filter_eq_nil_iff.2 (fun x hx hw => ?_)
    obtain ⟨hn, hq⟩ := x.waits_iff.1 hw
    rcases h x hx with h | h
    · simp [hn] at h
    · simp [hq] at h
  obtain ⟨room, hroom⟩ : ∃ n, 4 - s.iquHeld = n + 1 := ⟨3 - s.iquHeld, by omega⟩
  show ((s.faults.list ++ [newRecord s.faults.nextIdentity o c]).filter FaultRecord.waits).take (4 - s.iquHeld) = _
  rw [List.filter_append, idle, hroom]
  simp [FaultRecord.waits, newRecord]

/-- R130: with IQU full no record is served. -/
theorem State.servedNew_of_full (hi : 4 ≤ s.iquHeld) : s.servedNew o c = [] := by
  show List.take (4 - s.iquHeld) _ = []
  rw [Nat.sub_eq_zero_of_le hi, List.take_zero]

end new

theorem sourceCode_eq (src : Option Nat) : sourceCode src = src.getD 65535 := by
  cases src <;> rfl

/-- R126: the next identity is none of those in the list. -/
theorem identities_nodup_append {l : List FaultRecord} {r : FaultRecord} (h : (l.map FaultRecord.identity).Nodup)
    (hlt : ∀ x ∈ l, x.identity < r.identity) : ((l ++ [r]).map FaultRecord.identity).Nodup := by
  rw [List.map_append, List.nodup_append]
  refine ⟨h, List.nodup_cons.2 ⟨List.not_mem_nil, List.nodup_nil⟩, fun i hi j hj e => ?_⟩
  obtain ⟨x, hx, rfl⟩ := List.mem_map.1 hi
  obtain rfl : j = r.identity := by simpa using hj
  exact absurd (hlt x hx) (by omega)

/-! ## One occurrence (R124) -/

/-- R124 steps 1 and 2: the occurrence counted and its defect added. -/
def State.tallied (s : State) (o : Occurrence) : State := handDefect o (countOccurrence o.kind s)

theorem State.tallied_keeps (s : State) (o : Occurrence) :
    (s.tallied o).faults.list = s.faults.list ∧ (s.tallied o).faults.overflow = s.faults.overflow
    ∧ (s.tallied o).faults.nextIdentity = s.faults.nextIdentity ∧ (s.tallied o).store = s.store
    ∧ (s.tallied o).mode = s.mode ∧ (s.tallied o).tables = s.tables ∧ (s.tallied o).ownAddress = s.ownAddress
    ∧ (s.tallied o).tally = s.tally ∧ (s.tallied o).portU = s.portU := by
  simp [State.tallied, countOccurrence]

/-- R124: with a class other than NOTE the request of the class changes nothing that was entered. -/
theorem handle_entered {o : Occurrence} {s : State} (h : s.tables.faultClass o.kind ≠ .note) :
    (handle o s).faults = (enterOccurrence o (s.tables.faultClass o.kind) (s.tallied o)).faults
    ∧ (handle o s).store.iqu = (enterOccurrence o (s.tables.faultClass o.kind) (s.tallied o)).store.iqu := by
  rw [handle_class o s h]
  simp [State.tallied]

theorem handle_store_of_note {o : Occurrence} {s : State} (h : s.tables.faultClass o.kind = .note) :
    (handle o s).store = s.store := by
  rw [handle_note o s h]
  exact (s.tallied_keeps o).2.2.2.1

theorem handle_defect {o : Occurrence} {s : State} (hd : o.kind.isDefect = true) : (handle o s).coil = { s.coil with
    openCoil := s.coil.openCoil.addDefect o.kind o.source (o.stamp - s.coil.openCoil.start) o.extent
      (defectPoints o.kind o.count) } := by
  rw [handle_coil_eq, handDefect, if_pos hd]
  rfl

/-- R12, R13: the request of a class, made of a state whose mode, latch and HAULWATCH are those before. -/
theorem handle_requested {o : Occurrence} {s : State} (h : s.tables.faultClass o.kind ≠ .note) :
    ∃ e : State, handle o s = modeRequest (s.tables.faultClass o.kind) e ∧ e.mode = s.mode
      ∧ e.store.latchPending = s.store.latchPending ∧ e.tally.haulwatch = s.tally.haulwatch := by
  refine ⟨_, handle_class o s h, ?_⟩
  simp [countOccurrence]

theorem handle_creep {o : Occurrence} {s : State} (h : s.tables.faultClass o.kind = .creep) :
    (s.mode = .run → s.store.latchPending ≠ some .halt → (handle o s).store.latchPending = some .creep)
    ∧ (s.mode ≠ .run → (handle o s).store.latchPending = s.store.latchPending) := by
  obtain ⟨e, he, mode, latch, -⟩ := handle_requested (o := o) (s := s) (by rw [h]; decide)
  rw [he, h, ← mode, ← latch]
  refine ⟨fun hm hl => ?_, fun hm => ?_⟩
  · rw [modeRequest, creepRequest_of_run hm, State.setLatch_latchPending]
    exact if_neg hl
  · rw [modeRequest, creepRequest_of_other hm]

theorem handle_halt {o : Occurrence} {s : State} (h : s.tables.faultClass o.kind = .halt) :
    (handle o s).store.latchPending = some .halt
    ∧ (s.mode = .threading ∨ s.mode = .run ∨ s.mode = .creep → (handle o s).tally.haulwatch.running = false
        ∧ (handle o s).tally.haulwatch.current = s.tally.haulwatch.current) := by
  obtain ⟨e, he, mode, -, watch⟩ := handle_requested (o := o) (s := s) (by rw [h]; decide)
  rw [he, h, ← mode, ← watch]
  refine ⟨haltRequest_latch e, fun hm => ?_⟩
  rw [modeRequest, haltRequest_of_moving hm]
  simp [stopHaulwatch]

theorem handle_alarm_latch {o : Occurrence} {s : State} (h : s.tables.faultClass o.kind = .alarm) :
    (handle o s).store.latchPending = s.store.latchPending := by
  obtain ⟨e, he, -, latch, -⟩ := handle_requested (o := o) (s := s) (by rw [h]; decide)
  rw [he, h, ← latch]
  rfl

/-- Settles O30, by the class of the kind and by what the fault list holds. -/
theorem occurrenceHandled : Obligations.OccurrenceHandled := by
  refine ⟨fun k src count extent s => rfl, fun o s => ?_⟩
  intro c t isOf stronger unqueued alarm
  let b := s.tallied o
  obtain ⟨bList, bOverflow, bNext, bStore, bMode, bTables, bOwn, bTally, bPortU⟩ := s.tallied_keeps o
  have bHeld : b.iquHeld = s.iquHeld := by
    show b.store.iqu.length + transmitterEntries b.portU.transmitter + b.store.reserved.toNat = _
    rw [bStore, bPortU]
    rfl
  have bUnlisted (h : ∀ r ∈ s.faults.list, ¬isOf r) :
      ∀ r ∈ b.faults.list, ¬(r.kind = o.kind ∧ r.source = o.source) := by rwa [bList]
  have mode := handle_mode o s
  refine ⟨handle_counters o s, handle_coil o s, handle_defect, fun hc => ?_, fun hc hr => ?_, fun hc hr hl => ?_,
    fun hc hr hl => ?_, fun hc hf hr hl => ?_, fun hc => ⟨?_, handle_creep hc⟩, fun hc => ⟨?_, handle_halt hc⟩,
    fun hc => ⟨?_, handle_alarm_latch hc⟩⟩
  · have faults : t.faults = b.faults := congrArg State.faults (handle_note o s hc)
    refine ⟨by rw [faults, bList], by rw [faults, bOverflow], ?_, handle_store_of_note hc⟩
    exact mode.trans (by simp only [show s.tables.faultClass o.kind = .note from hc])
  · obtain ⟨faults, iqu⟩ := handle_entered (o := o) (s := s) hc
    rw [enterOccurrence_of_listed (by rw [bList]; exact hr)] at faults iqu
    refine ⟨?_, iqu.trans (by rw [bStore]), (congrArg FaultDispatch.overflow faults).trans bOverflow⟩
    exact (congrArg FaultDispatch.list faults).trans (by rw [bList] <;> rfl)
  · obtain ⟨faults, iqu⟩ := handle_entered (o := o) (s := s) hc
    rw [enterOccurrence_of_full (bUnlisted hr) (by rwa [bList])] at faults iqu
    exact ⟨(congrArg FaultDispatch.list faults).trans bList,
      (congrArg FaultDispatch.overflow faults).trans (congrArg bump bOverflow), iqu.trans (by rw [bStore])⟩
  · obtain ⟨faults, iqu⟩ := handle_entered (o := o) (s := s) hc
    rw [enterOccurrence_of_new (bUnlisted hr) (by rwa [bList])] at faults iqu
    have list := (congrArg FaultDispatch.list faults).trans (sendAlarms_listed_list b o c)
    obtain ⟨kind, source, classTaken, count, first, last, notified, identity⟩ := b.lastRecord_fields o c
    refine ⟨b.lastRecord o c, ?_, ?_, kind, source, classTaken, count, first, last, notified, fun hi hw => ?_,
      fun hi => ?_, ?_, ?_⟩
    · rw [list, List.getLast?_concat]
    · rw [list, List.length_append, List.length_map, bList]
      rfl
    · have served := b.servedNew_of_alone o c (by rwa [bHeld]) (by rwa [bList])
      refine ⟨?_, ?_⟩
      · rw [State.lastRecord, FaultRecord.queuedIf, served, if_pos (by simp [newRecord])]
      · rw [iqu, sendAlarms_listed, served, identity, ← bStore, ← bTables, ← bOwn, ← sourceCode_eq]
        rfl
    · have served := b.servedNew_of_full o c (by rwa [bHeld])
      have new : b.lastRecord o c = newRecord b.faults.nextIdentity o c := by
        rw [State.lastRecord, FaultRecord.queuedIf, served, if_neg (by simp)]
      have queued : sendAlarms (b.listed o c) = b.listed o c := by
        rw [sendAlarms_listed, served, alarmsQueued_nil]
      rw [queued] at faults iqu
      refine ⟨by rw [new]; rfl, iqu.trans (by rw [← bStore]; rfl), ?_⟩
      rw [new, ← bList]
      exact congrArg FaultDispatch.list faults
    · rw [list, List.map_append, List.map_map, ← bList]
      congr 1
      exact List.map_congr_left (fun x _ => x.queuedIf_unqueued _)
    · refine (congrArg FaultDispatch.overflow faults).trans ?_
      rw [sendAlarms_listed, ← bOverflow]
      rfl
  · intro records served
    obtain ⟨faults, iqu⟩ := handle_entered (o := o) (s := s) hc
    rw [enterOccurrence_of_new (bUnlisted hr) (by rwa [bList])] at faults iqu
    have recordsEq : (b.listed o c).faults.list = records := by
      show b.faults.list ++ [newRecord b.faults.nextIdentity o c] = _
      rw [bList, bNext]
      rfl
    have distinct : ((b.listed o c).faults.list.map FaultRecord.identity).Nodup := by
      rw [recordsEq]
      exact identities_nodup_append hf.2.2.2.1 (fun r h => (hf.2.2.2.2.1 r h).2.1)
    have servedEq : servedBy (b.listed o c).faults.list (b.listed o c) = served := by
      have held : (b.listed o c).iquHeld = s.iquHeld := bHeld
      rw [servedBy, held, recordsEq]
      rfl
    rw [sendAlarms_eq _ distinct, servedEq, recordsEq] at faults iqu
    refine ⟨congrArg FaultDispatch.list faults, iqu.trans ?_⟩
    have entries : (b.listed o c).alarmEntry = alarm := by
      funext r
      simp only [alarm, ← bTables, ← bOwn, ← sourceCode_eq]
      rfl
    rw [entries, ← bStore]
    rfl
  · exact mode.trans (by simp only [show s.tables.faultClass o.kind = .creep from hc])
  · exact mode.trans (by simp only [show s.tables.faultClass o.kind = .halt from hc])
  · exact mode.trans (by simp only [show s.tables.faultClass o.kind = .alarm from hc])

end Sys2Proof.Machine

/-! Management (12.2 to 12.4): a request carried out and answered OK, and the clearing of faults (R14, R131, R132). -/

namespace Sys2Proof.Machine

/-! ## A request answered (R163, R192, R193) -/

/-- R193: a request that makes `t` of the state and sends a plain reply. -/
theorem requestMade_makes (src : Addr) {q : Request} {s t : State} {status : Byte} {data : List Byte}
    (h : s.TakesRequests) (hp : parseRequest q.encode = some q) (ha : q.availableIn s.mode = true)
    (hc : carryOut q s.granted = (t.granted, { status := status, data := data, mark := .plain }))
    (ht : t.HoldOutFollows) (hr : t.store.reserved = false) :
    requestMade src q s = .next (t.answered src (status :: data)) :=
  requestMade_answered src q s (t.frameConsumed .u) _ h hp ha hc ht.1 hr (setHoldOut_of_follows _ ht)

/-- R193: a request that changes nothing and sends a plain reply. -/
theorem requestMade_reads (src : Addr) {q : Request} {s : State} {status : Byte} {data : List Byte}
    (h : s.TakesRequests) (hp : parseRequest q.encode = some q) (ha : q.availableIn s.mode = true)
    (hc : carryOut q s.granted = (s.granted, { status := status, data := data, mark := .plain })) :
    requestMade src q s = .next (s.answered src (status :: data)) :=
  requestMade_kept src q s status data h hp ha hc

/-! ## CLEAR_FAULT and CLEAR_ALL (R14, R131, R132) -/

/-- R131, R132: the state with this fault list. -/
def State.withFaults (s : State) (l : List FaultRecord) : State := { s with faults.list := l }

/-- R14: a fault list shortened in a request, the CREEP exit examined. -/
theorem requestMade_clears (src : Addr) {q : Request} {s : State} (l : List FaultRecord) (h : s.TakesRequests)
    (hp : parseRequest q.encode = some q) (ha : q.availableIn s.mode = true)
    (hc : carryOut q s.granted = (creepExit (s.granted.withFaults l), Reply.ok [])) :
    (¬(s.withFaults l).mayExitCreep → requestMade src q s = .next ((s.withFaults l).answered src [0]))
    ∧ ((s.withFaults l).mayExitCreep → s.store.latchPending ≠ some .halt → requestMade src q s = .next
        (State.answered { s.withFaults l with mode := .run, store.latchPending := some .go } src [0]))
    ∧ ((s.withFaults l).mayExitCreep → s.store.latchPending = some .halt → requestMade src q s = .next
        (State.answered { s.withFaults l with mode := .run } src [0])) := by
  obtain ⟨⟨⟨-, -, hreserved, -⟩, -, hfollows⟩, -⟩ := id h
  refine ⟨fun he => ?_, fun he hl => ?_, fun he hl => ?_⟩
  · rw [creepExit_of_not (by exact he)] at hc
    exact requestMade_makes src (t := s.withFaults l) h hp ha hc hfollows hreserved
  · rw [creepExit_of_free (by exact he) (by exact hl)] at hc
    exact requestMade_makes src (t := { s.withFaults l with mode := .run, store.latchPending := some .go }) h hp ha hc
      hfollows hreserved
  · rw [creepExit_of_halt (by exact he) (by exact hl)] at hc
    exact requestMade_makes src (t := { s.withFaults l with mode := .run }) h hp ha hc hfollows hreserved

/-- R131: the records a CLEAR_FAULT of a kind and source leaves. -/
def recordsBut (k : FaultKind) (src : Option Nat) (l : List FaultRecord) : List FaultRecord :=
  l.filter (fun r => !decide (r.kind = k ∧ r.source = src))

theorem recordsBut_eq_self_iff (k : FaultKind) (src : Option Nat) (l : List FaultRecord) :
    recordsBut k src l = l ↔ ∀ r ∈ l, ¬(r.kind = k ∧ r.source = src) := by
  simp only [recordsBut, List.filter_eq_self, Bool.not_eq_true', decide_eq_false_iff_not]

theorem clearFaultRequest_of_unnamed {k : Nat} (n : Nat) (s : State) (h : FaultKind.ofNumber k = none) :
    clearFaultRequest k n s = (s, Reply.bare statusBadValue) := by
  simp only [clearFaultRequest, h]

theorem clearFaultRequest_of_absent {k n : Nat} {kind : FaultKind} {s : State} (h : FaultKind.ofNumber k = some kind)
    (hr : recordsBut kind (sourceOfCode kind n) s.faults.list = s.faults.list) :
    clearFaultRequest k n s = (s, Reply.bare statusNotFound) := by
  have absent : ¬s.faults.list.any (fun r => r.isOf kind (sourceOfCode kind n)) = true := by
    rw [anyIsOf_iff]
    rintro ⟨r, hm, he⟩
    exact (recordsBut_eq_self_iff ..).1 hr r hm he
  simp only [clearFaultRequest, h, if_neg absent]

theorem clearFaultRequest_of_listed {k n : Nat} {kind : FaultKind} {s : State} (h : FaultKind.ofNumber k = some kind)
    (hr : recordsBut kind (sourceOfCode kind n) s.faults.list ≠ s.faults.list) :
    clearFaultRequest k n s =
      (creepExit (s.withFaults (recordsBut kind (sourceOfCode kind n) s.faults.list)), Reply.ok []) := by
  have listed : s.faults.list.any (fun r => r.isOf kind (sourceOfCode kind n)) = true := by
    rw [anyIsOf_iff]
    exact Classical.byContradiction (fun hn => hr ((recordsBut_eq_self_iff ..).2 (fun r hm he => hn ⟨r, hm, he⟩)))
  simp only [clearFaultRequest, h, if_pos listed]
  rfl

/-- Settles O31, by whether the kind is named and a record of it is listed. -/
theorem faultsCleared : Obligations.FaultsCleared := by
  intro src k source s h ends without cleared
  have parse : parseRequest (Request.clearFault k source).encode = some (.clearFault k source) :=
    parse_encode _ (by simp)
  refine ⟨requestMade_clears src (q := .clearAll) [] h rfl rfl rfl, fun hk => ?_, fun kind hk => ?_⟩
  · exact requestMade_reads src (q := .clearFault k source) h parse rfl
      (clearFaultRequest_of_unnamed source.toNat s.granted hk)
  · intro from_ rest
    refine ⟨fun hr => ?_, fun hr => ?_⟩
    · exact requestMade_reads src (q := .clearFault k source) h parse rfl
        (clearFaultRequest_of_absent (s := s.granted) hk hr)
    · exact requestMade_clears src (q := .clearFault k source) rest h parse rfl
        (clearFaultRequest_of_listed (s := s.granted) hk hr)

end Sys2Proof.Machine

/-! The read requests (12.5, R37, R56, R81, R105, R135, R198, R199): the pages they answer with, read in the state a
request is carried out in, and the six statements about them. -/

namespace Sys2Proof.Machine

/-- R193: a read request answers with what it reads where it is carried out. -/
theorem requestMade_read (src : Addr) {q : Request} {s : State} {r : Reply} (h : s.TakesRequests)
    (hp : parseRequest q.encode = some q) (ha : q.availableIn s.mode = true)
    (hc : carryOut q s.granted = (s.granted, r)) (hm : r.mark = .plain) :
    requestMade src q s = .next (s.answered src (r.status :: r.data)) := by
  obtain ⟨status, data, mark⟩ := r
  subst hm
  exact requestMade_reads src h hp ha hc

/-! ## READ_ROW (R198, R207) -/

theorem readRowReply_of_unnamed {s : State} {table : Nat} (row page : Nat) (h : TableName.ofCode table = none) :
    readRowReply s table row page = Reply.bare statusBadValue := by
  simp only [readRowReply, h]

theorem readRowReply_of_no_row {s : State} {table row : Nat} {name : TableName} (page : Nat)
    (h : TableName.ofCode table = some name) (hr : name.hasRow row = false) :
    readRowReply s table row page = Reply.bare statusBadRow := by
  simp only [readRowReply, h, hr, Bool.false_eq_true, if_false]

theorem readRowReply_of_row {s : State} {table row : Nat} {name : TableName} (page : Nat)
    (h : TableName.ofCode table = some name) (hr : name.hasRow row = true) :
    readRowReply s table row page = rowPage (s.rowFields name row) page := by
  simp only [readRowReply, h, hr, if_true]

theorem exec_readRow (src : Addr) (table : Byte) (row : BitVec 16) (page : Byte) {s : State} (h : s.TakesRequests)
    {r : Reply} (hr : readRowReply s.granted table.toNat row.toNat page.toNat = r) (hm : r.mark = .plain) :
    exec (.readRow src table row page) s = .next (s.answered src (r.status :: r.data)) :=
  requestMade_read src (q := .readRow table row page) h (parse_encode _ (by simp)) rfl
    (congrArg (Prod.mk _) hr) hm

/-- R198: the page of a row that exists. -/
theorem exec_readRow_of_row (src : Addr) {table : Byte} {row : BitVec 16} (page : Byte) {s : State}
    (h : s.TakesRequests) {name : TableName} (hn : TableName.ofCode table.toNat = some name)
    (hr : name.hasRow row.toNat = true) :
    ((s.rowFields name row.toNat).length ≤ 7 * page.toNat →
      exec (.readRow src table row page) s = .next (s.answered src [2]))
    ∧ (7 * page.toNat < (s.rowFields name row.toNat).length →
      exec (.readRow src table row page) s = .next (s.answered src ([0] ++ enc1 (7 * page.toNat)
        ++ (((s.rowFields name row.toNat).drop (7 * page.toNat)).take 7).flatMap
            (fun v => enc4 (v % 4294967296).toNat)))) := by
  have fields : s.granted.rowFields name row.toNat = s.rowFields name row.toNat := by cases name <;> rfl
  have reply := readRowReply_of_row (s := s.granted) page.toNat hn hr
  rw [fields] at reply
  refine ⟨fun hl => ?_, fun hl => ?_⟩
  · rw [rowPage, if_pos hl] at reply
    exact exec_readRow src table row page h reply rfl
  · rw [rowPage, if_neg (Nat.not_le.2 hl)] at reply
    exact exec_readRow src table row page h reply rfl

theorem boolCode_cast (b : Bool) : ((boolCode b : Nat) : Int) = if b then 1 else 0 := by
  cases b <;> rfl

theorem portCode_cast (p : Port) : ((portCode p : Nat) : Int) = match p with | .u => 0 | .d => 1 := by
  cases p <;> rfl

theorem meshNextCode_cast (n : Option StepIndex) :
    ((meshNextCode n : Nat) : Int) = match n with | none => 64 | some i => (i.val : Int) := by
  cases n <;> rfl

/-- Settles O33. -/
theorem readRowAnswered : Obligations.ReadRowAnswered := by
  refine ⟨fun t a row slot unit step k => ⟨rfl, rfl, rfl, rfl, rfl, rfl, rfl⟩, fun s a unit => ⟨rfl, rfl, rfl⟩,
    fun src table row page s h => ?_⟩
  intro n l flag read gives
  have row (name : TableName) (fields : List Int) (hn : TableName.ofCode table.toNat = some name)
      (hr : name.hasRow n = true) (hf : s.rowFields name n = fields) : gives fields := by
    subst hf
    exact exec_readRow_of_row src page h hn hr
  refine ⟨fun ht => ?_, fun name ht hr => ?_, fun ht hr => ?_, fun ht hr => ?_, fun ht hr => ?_, fun ht hr => ?_,
    fun ht hr => ?_, fun ht hr => ?_, fun ht h1 hr => ?_⟩
  · exact exec_readRow src table _ page h (readRowReply_of_unnamed _ _ ht) rfl
  · exact exec_readRow src table _ page h (readRowReply_of_no_row _ ht hr) rfl
  · refine row .line _ (by rw [ht]; rfl) (by simp [TableName.hasRow, hr]) ?_
    simp only [State.rowFields, lineFields, boolCode_cast]
    rfl
  · refine row .stations _ (by rw [ht]; rfl) (by simpa [TableName.hasRow] using hr) ?_
    simp only [State.rowFields, stationFields, portCode_cast] <;> rfl
  · exact row .actions _ (by rw [ht]; rfl) (by simpa [TableName.hasRow] using hr) rfl
  · refine row .products _ (by rw [ht]; rfl) (by simpa [TableName.hasRow] using hr) ?_
    simp only [State.rowFields, productFields, boolCode_cast]
    rfl
  · refine row .lays _ (by rw [ht]; rfl) (by simpa [TableName.hasRow] using hr) ?_
    simp only [State.rowFields, layFields, boolCode_cast]
    rfl
  · refine row .mesh _ (by rw [ht]; rfl) (by simpa [TableName.hasRow] using hr) ?_
    simp only [State.rowFields, meshFields, boolCode_cast, meshNextCode_cast]
    rfl
  · exact row .faults _ (by rw [ht]; rfl) (by simpa [TableName.hasRow] using ⟨h1, hr⟩) rfl

/-! ## READ_HEAD (R56) -/

theorem exec_readHead (src : Addr) (unit : Byte) {s : State} (h : s.TakesRequests) {r : Reply}
    (hr : readHeadReply s.granted unit.toNat = r) (hm : r.mark = .plain) :
    exec (.readHead src unit) s = .next (s.answered src (r.status :: r.data)) :=
  requestMade_read src (q := .readHead unit) h rfl rfl (congrArg (Prod.mk _) hr) hm

/-- Settles O34. -/
theorem readHeadAnswered : Obligations.ReadHeadAnswered := by
  intro src unit s h
  refine ⟨fun hu => exec_readHead src unit h (if_neg (by omega)) rfl, fun u hu => ⟨rfl, ?_⟩⟩
  have named : Fin.ofNat 24 unit.toNat = u := by
    rw [← hu]
    exact Fin.ofNat_val_eq_self u
  have reply : readHeadReply s.granted unit.toNat = Reply.ok (headData (s.head u) (s.layRow u).inUse) := by
    rw [readHeadReply, if_pos (by omega), named]
    rfl
  exact exec_readHead src unit h reply rfl

/-! ## READ_FAULTS (R135) -/

theorem exec_readFaults (src : Addr) (part index : Byte) {s : State} (h : s.TakesRequests) {r : Reply}
    (hr : readFaultsReply s.granted part.toNat index.toNat = r) (hm : r.mark = .plain) :
    exec (.readFaults src part index) s = .next (s.answered src (r.status :: r.data)) :=
  requestMade_read src (q := .readFaults part index) h rfl rfl (congrArg (Prod.mk _) hr) hm

/-- One entry of a list, as a page of at most one. -/
theorem drop_take_one {α : Type} (l : List α) (i : Nat) : (l.drop i).take 1 = l[i]?.toList := by
  rw [List.take_one, List.head?_drop]

/-- R206: the two flags of a record in one character. -/
theorem flagCodes_eq (queued notified : Bool) :
    boolCode queued + 2 * boolCode notified = (if queued then 1 else 0) + (if notified then 2 else 0) := by
  cases queued <;> cases notified <;> rfl

theorem faultRecordsReply_of_within {f : FaultDispatch} {index : Nat} (hi : index ≤ 15) :
    faultRecordsReply f index =
      Reply.ok (enc1 f.list.length ++ enc2 f.overflow ++ f.list[index]?.toList.flatMap recordData) := by
  rw [faultRecordsReply, if_neg (by omega), drop_take_one]

theorem faultCountersReply_of_within {f : FaultDispatch} {kind : Nat} (h1 : 1 ≤ kind) (h19 : kind ≤ 19) :
    faultCountersReply f kind =
      Reply.ok (enc2 f.overflow ++ ((f.counters.drop (kind - 1)).take 14).flatMap enc2) :=
  if_neg (by omega)

theorem readFaultsReply_of_other {s : State} {part : Byte} (index : Nat) (h0 : part ≠ 0) (h1 : part ≠ 1) :
    readFaultsReply s part.toNat index = Reply.bare statusBadValue := by
  unfold readFaultsReply
  split
  case h_1 e => exact absurd (BitVec.eq_of_toNat_eq e) h0
  case h_2 e => exact absurd (BitVec.eq_of_toNat_eq e) h1
  case h_3 => rfl

/-- Settles O35. -/
theorem readFaultsAnswered : Obligations.ReadFaultsAnswered := by
  intro src part index s h head
  refine ⟨fun h0 h1 => ?_, fun hp hi => ?_, fun hp hi hl => ?_, fun r hp hi hr => ?_, fun hp hi => ?_,
    fun hp h1 h19 => ?_⟩
  · exact exec_readFaults src part index h (readFaultsReply_of_other _ h0 h1) rfl
  · subst hp
    exact exec_readFaults src 0 index h (if_pos hi) rfl
  · subst hp
    rw [exec_readFaults src 0 index h (faultRecordsReply_of_within hi) rfl,
      List.getElem?_eq_none (by exact hl)]
    simp [Reply.ok, head]
    rfl
  · subst hp
    rw [exec_readFaults src 0 index h (faultRecordsReply_of_within hi) rfl]
    have found : s.granted.faults.list[index.toNat]? = some r := hr
    rw [found, ← sourceCode_eq, ← flagCodes_eq]
    simp [Reply.ok, recordData]
    rfl
  · subst hp
    refine exec_readFaults src 1 index h (if_pos ?_) rfl
    rcases hi with rfl | hi
    · exact .inl (by decide)
    · exact .inr hi
  · subst hp
    exact exec_readFaults src 1 index h (faultCountersReply_of_within h1 h19) rfl

/-! ## READ_COIL (R105) -/

theorem exec_readCoil (src : Addr) (record page : Byte) {s : State} (h : s.TakesRequests) {r : Reply}
    (hr : readCoilReply s.granted record.toNat page.toNat = r) (hm : r.mark = .plain) :
    exec (.readCoil src record page) s = .next (s.answered src (r.status :: r.data)) :=
  requestMade_read src (q := .readCoil record page) h rfl rfl (congrArg (Prod.mk _) hr) hm

/-- R105: the record a READ_COIL names. -/
def State.namedCoil (s : State) (record : Byte) : Option CoilRecord :=
  if record = 255 then some s.coil.openCoil else s.coil.queue[record.toNat]?

theorem readCoilReply_of_named {s : State} {record : Byte} {c : CoilRecord} (page : Nat)
    (h : s.namedCoil record = some c) : readCoilReply s record.toNat page = coilPage c page := by
  unfold State.namedCoil at h
  unfold readCoilReply
  by_cases hr : record = 255
  · rw [if_pos hr] at h
    subst hr
    rw [← Option.some.inj h]
    rfl
  · rw [if_neg hr] at h
    have other : record.toNat ≠ 255 := fun e => hr (BitVec.eq_of_toNat_eq e)
    rw [if_neg other, h]

theorem readCoilReply_of_unnamed {s : State} {record : Byte} (page : Nat)
    (h : s.namedCoil record = none) : readCoilReply s record.toNat page = Reply.bare statusBadRow := by
  unfold State.namedCoil at h
  unfold readCoilReply
  by_cases hr : record = 255
  · rw [if_pos hr] at h
    cases h
  · rw [if_neg hr] at h
    have other : record.toNat ≠ 255 := fun e => hr (BitVec.eq_of_toNat_eq e)
    rw [if_neg other, h]

theorem coilPage_of_entry {c : CoilRecord} {page : Nat} (h1 : 1 ≤ page) (h24 : page ≤ 24) :
    coilPage c page = Reply.ok (c.defects[page - 1]?.toList.flatMap defectData) := by
  rw [coilPage, if_neg (by omega), if_neg (by omega), drop_take_one]

/-- R206: the state and the flags of a coil record in one character. -/
theorem coilFlags_eq (state : Nat) (net overdue noted : Bool) :
    state + 8 * boolCode net + 16 * boolCode overdue + 32 * boolCode noted =
      state + (if net then 8 else 0) + (if overdue then 16 else 0) + (if noted then 32 else 0) := by
  cases net <;> cases overdue <;> cases noted <;> rfl

/-- Settles O36. -/
theorem readCoilAnswered : Obligations.ReadCoilAnswered := by
  intro src record page s h named
  have reply {c : CoilRecord} (hc : named = some c) :
      readCoilReply s.granted record.toNat page.toNat = coilPage c page.toNat :=
    readCoilReply_of_named (s := s.granted) _ hc
  refine ⟨fun hn => ?_, fun c hc hp => ?_, fun c hc hp => ?_, fun c e hc h1 h24 he => ?_, fun c hc h1 h24 hl => ?_⟩
  · exact exec_readCoil src record page h (readCoilReply_of_unnamed (s := s.granted) _ hn) rfl
  · exact exec_readCoil src record page h ((reply hc).trans (if_pos hp)) rfl
  · have data : coilPage c page.toNat = Reply.ok (coilData c) := by
      rw [hp]
      rfl
    rw [exec_readCoil src record page h ((reply hc).trans data) rfl, ← coilFlags_eq]
    rfl
  · rw [exec_readCoil src record page h ((reply hc).trans (coilPage_of_entry h1 h24)) rfl, he, ← sourceCode_eq]
    simp [Reply.ok, defectData]
    rfl
  · rw [exec_readCoil src record page h ((reply hc).trans (coilPage_of_entry h1 h24)) rfl,
      List.getElem?_eq_none (by omega)]
    rfl

/-! ## READ_MESH (R81) -/

theorem exec_readMesh (src : Addr) (page : Byte) {s : State} (h : s.TakesRequests) {r : Reply}
    (hd : readMeshDraws s page.toNat = false) (hr : readMeshReply s.granted page.toNat = r) (hm : r.mark = .plain) :
    exec (.readMesh src page) s = .next (s.answered src (r.status :: r.data)) := by
  refine requestMade_read src (q := .readMesh page) h rfl rfl ?_ hm
  have draws : readMeshDraws s.granted page.toNat = false := hd
  show readMeshRequest page.toNat s.granted = _
  rw [readMeshRequest, draws, hr]
  rfl

/-- R81, R204: page 0 while UNSYNCED draws the free value it sends (log 21). -/
theorem exec_readMesh_of_unsynced (src : Addr) {s : State} (h : s.TakesRequests) (he : s.mesh.cursor.expected = none) :
    exec (.readMesh src 0) s = .next (s.drawn.answered src (0 :: cursorData s)) := by
  obtain ⟨⟨⟨-, -, hreserved, -⟩, -, hfollows⟩, -⟩ := id h
  refine requestMade_makes src (q := .readMesh 0) (t := s.drawn) h rfl rfl ?_ hfollows hreserved
  have draws : readMeshDraws s.granted 0 = true := congrArg Option.isNone he
  show readMeshRequest 0 s.granted = _
  rw [readMeshRequest, draws]
  rfl

theorem readMeshDraws_of_later {s : State} {page : Byte} (h : page.toNat ≠ 0) : readMeshDraws s page.toNat = false := by
  simp [readMeshDraws, h]

theorem readMeshReply_of_misses {s : State} {page : Nat} (h2 : 2 ≤ page) (h6 : page ≤ 6) :
    readMeshReply s page = Reply.ok (missPage s.mesh.misses page) := by
  obtain ⟨n, rfl⟩ : ∃ n, page = n + 2 := ⟨page - 2, by omega⟩
  exact if_neg (by omega)

/-- Settles O37. -/
theorem readMeshAnswered : Obligations.ReadMeshAnswered := by
  intro src page s h c k before after
  refine ⟨fun e hp he => ?_, fun hp he => ?_, fun hp => ?_, fun h2 h6 => ?_, fun h6 => ?_⟩
  · subst hp
    have draws : readMeshDraws s (0 : Byte).toNat = false := congrArg Option.isNone he
    have granted : s.granted.mesh.cursor.expected = some e := he
    rw [exec_readMesh src 0 h draws rfl rfl]
    show Host.Outcome.next (s.answered src (0 :: cursorData s.granted)) = _
    rw [cursorData, granted]
    simp only [before, after, List.append_assoc]
    rfl
  · subst hp
    refine ⟨(Config.unsyncedExpectedRow s.freeDraws).toNat, ?_⟩
    have unsynced : s.mesh.cursor.expected = none := he
    rw [exec_readMesh_of_unsynced src h he, cursorData, unsynced]
    simp only [before, after, List.append_assoc]
    rfl
  · subst hp
    rw [exec_readMesh src 1 h (readMeshDraws_of_later (by decide)) rfl rfl]
    have counts : meshCountData k = enc2 k.rejectedRowdone ++ enc2 k.ignoredRows ++ enc2 k.duplicateRows
        ++ enc2 k.strayPositions ++ enc2 k.untrackedMisses ++ enc2 k.refusedTapers ++ enc2 k.refusedSteps := rfl
    exact congrArg (fun d => Host.Outcome.next (s.answered src (0 :: d))) counts
  · exact exec_readMesh src page h (readMeshDraws_of_later (by omega)) (readMeshReply_of_misses h2 h6) rfl
  · exact exec_readMesh src page h (readMeshDraws_of_later (by omega)) (if_pos h6) rfl

/-! ## READ_STATUS (R37, R174, R199) -/

theorem exec_readStatus (src : Addr) (page : Byte) {s : State} (h : s.TakesRequests) {r : Reply}
    (hr : readStatusReply s.granted page.toNat = r) (hm : r.mark = .plain) :
    exec (.readStatus src page) s = .next (s.answered src (r.status :: r.data)) :=
  requestMade_read src (q := .readStatus page) h rfl rfl (congrArg (Prod.mk _) hr) hm

/-- R163: the slot of a request being carried out. -/
theorem State.granted_freeForwarding {s : State} (h : s.store.arriving = false) :
    s.granted.freeForwarding = s.freeForwarding - 1 := by
  have held : s.granted.heldForwarding = s.heldForwarding + 1 := by
    simp only [State.heldForwarding, h]
    rfl
  rw [State.freeForwarding_eq, State.freeForwarding_eq, held]
  omega

/-- R163: the IQU entry of the reply of a request being carried out. -/
theorem State.granted_iquHeld {s : State} (h : s.store.reserved = false) : s.granted.iquHeld = s.iquHeld + 1 := by
  simp only [State.iquHeld, h]
  rfl

/-- R163, R206: page 0 as a request of its own finds it: its slot and its reply's entry held, no request waiting. -/
def State.statusTaken (s : State) : List Byte :=
  enc1 s.mode.code ++ enc1 s.ownAddress.toNat ++ enc1 s.coil.current.val ++ enc2 s.product.productId
    ++ enc1 (slotCode s.coil.next) ++ enc2 s.coil.refusedChangeovers ++ enc4 s.tally.haulTotal
    ++ enc4 s.tally.packedTotal ++ enc1 (boolCode s.tally.loaded) ++ enc1 (s.freeForwarding - 1)
    ++ enc1 s.store.fqd.length ++ enc1 s.store.fqu.length ++ enc1 s.iqdHeld ++ enc1 (s.iquHeld + 1)
    ++ enc1 (latchCode s.store.latchPending) ++ enc1 (latchCode s.store.latchInFlight)
    ++ [0] ++ enc1 (boolCode s.portU.transmitter.isSome) ++ enc1 (boolCode s.portD.transmitter.isSome)

theorem statusPage0_granted {s : State} (h : s.TakesRequests) : statusPage0 s.granted = s.statusTaken := by
  obtain ⟨⟨⟨-, harriving, hreserved, -⟩, -⟩, hhold, -⟩ := id h
  have hold : s.granted.store.hold = none := hhold
  have noHold : enc1 (boolCode (none : Option Frame).isSome) = [0] := rfl
  rw [statusPage0, s.granted_freeForwarding harriving, s.granted_iquHeld hreserved, hold, noHold]
  rfl

theorem readStatusReply_of_above {s : State} {page : Nat} (h : 4 < page) :
    readStatusReply s page = Reply.bare statusBadRow := by
  match page with
  | 0 | 1 | 2 | 3 | 4 => omega
  | n + 5 => rfl

/-- Settles O38. -/
theorem readStatusAnswered : Obligations.ReadStatusAnswered := by
  intro src page s h y k flag length time answers
  refine ⟨fun hp => ?_, fun hp => ?_, fun hp => ?_, fun hp => ?_, fun hp => ?_, fun hp => ?_⟩
  · subst hp
    exact exec_readStatus src 0 h (congrArg Reply.ok (statusPage0_granted h)) rfl
  · subst hp
    exact exec_readStatus src 1 h rfl rfl
  · subst hp
    exact exec_readStatus src 2 h rfl rfl
  · subst hp
    exact exec_readStatus src 3 h rfl rfl
  · subst hp
    exact exec_readStatus src 4 h rfl rfl
  · exact exec_readStatus src page h (readStatusReply_of_above hp) rfl

end Sys2Proof.Machine

/-! WRITE_FIELDS (R114, R195 to R197): its refusals in order, a row written in the tables, and the statement. -/

namespace Sys2Proof.Machine

/-! ## The request on its branches (R196) -/

theorem writeFieldsRequest_of_unnamed {table : Nat} (row : Nat) (pairs : List (Byte × BitVec 32)) (s : State)
    (h : TableName.ofCode table = none) :
    writeFieldsRequest table row pairs s = (s, Reply.bare statusBadValue) := by
  simp only [writeFieldsRequest, h]

section named
variable {table row : Nat} {name : TableName} {pairs : List (Byte × BitVec 32)} {s : State}
  (hn : TableName.ofCode table = some name)
include hn

theorem writeFieldsRequest_of_no_row (hr : name.hasRow row = false) :
    writeFieldsRequest table row pairs s = (s, Reply.bare statusBadRow) := by
  simp only [writeFieldsRequest, hn, hr, Bool.false_eq_true, if_false]

theorem writeFieldsRequest_of_refused (hr : name.hasRow row = true) {status : Byte}
    (hs : s.writeRefusal name row = some status) :
    writeFieldsRequest table row pairs s = (s, Reply.bare status) := by
  simp only [writeFieldsRequest, hn, hr, if_true, hs]

theorem writeFieldsRequest_of_bad (hr : name.hasRow row = true) (hs : s.writeRefusal name row = none)
    (hw : s.tables.writeRow name row pairs = none) :
    writeFieldsRequest table row pairs s = (s, Reply.bare statusBadValue) := by
  simp only [writeFieldsRequest, hn, hr, if_true, hs, hw]

theorem writeFieldsRequest_of_kept_threshold {tables : Tables} (hr : name.hasRow row = true)
    (hs : s.writeRefusal name row = none) (hw : s.tables.writeRow name row pairs = some tables)
    (hk : ¬(name = .line ∧ ∃ q ∈ pairs, q.1 = 3)) :
    writeFieldsRequest table row pairs s = ({ s with tables := tables }, Reply.ok []) := by
  have kept : ¬(name = .line ∧ pairs.any (fun p => p.1 = 3) = true) := by
    simpa only [List.any_eq_true, decide_eq_true_eq] using hk
  simp only [writeFieldsRequest, hn, hr, if_true, hs, hw, if_neg kept]

theorem writeFieldsRequest_of_threshold {tables : Tables} (hr : name.hasRow row = true)
    (hs : s.writeRefusal name row = none) (hw : s.tables.writeRow name row pairs = some tables)
    (hk : name = .line ∧ ∃ q ∈ pairs, q.1 = 3) :
    writeFieldsRequest table row pairs s = (({ s with tables := tables } : State).setHoldOut, Reply.ok []) := by
  have threshold : name = .line ∧ pairs.any (fun p => p.1 = 3) = true := by
    simpa only [List.any_eq_true, decide_eq_true_eq] using hk
  simp only [writeFieldsRequest, hn, hr, if_true, hs, hw, if_pos threshold]

end named

/-! ## Writability (R114, R195) -/

/-- R114: a slot is a selection. -/
def State.selects (s : State) (slot : Nat) : Prop := s.coil.current.val = slot ∨ s.coil.next.map Fin.val = some slot

theorem State.slotLocked_iff (s : State) (slot : Nat) : s.slotLocked slot = true ↔ s.selects slot := by
  simp [State.slotLocked, State.selects]

/-- R195: a table row is writable in the mode in force. -/
def State.writable (s : State) (name : TableName) (row : Nat) : Prop :=
  s.mode = .parked ∨ (name = .products ∧ ¬s.selects row) ∨ (name = .lays ∧ ¬s.selects (row / 24))

theorem State.writeRefusal_of_writable {s : State} {name : TableName} {row : Nat} (h : s.writable name row) :
    s.writeRefusal name row = none := by
  unfold State.writeRefusal
  rcases h with h | ⟨rfl, h⟩ | ⟨rfl, h⟩
  · rw [if_pos h]
  · simp only [s.slotLocked_iff, h, if_false, ite_self]
  · simp only [s.slotLocked_iff, h, if_false, ite_self]

theorem State.writeRefusal_of_fixed {s : State} {name : TableName} (row : Nat) (hm : s.mode ≠ .parked)
    (hp : name ≠ .products) (hl : name ≠ .lays) : s.writeRefusal name row = some statusNotInMode := by
  unfold State.writeRefusal
  rw [if_neg hm]
  cases name <;> first | rfl | contradiction

theorem State.writeRefusal_of_product {s : State} {row : Nat} (hm : s.mode ≠ .parked) (h : s.selects row) :
    s.writeRefusal .products row = some statusBusy := by
  simp only [State.writeRefusal, if_neg hm, if_pos ((s.slotLocked_iff row).2 h)]

theorem State.writeRefusal_of_lay {s : State} {row : Nat} (hm : s.mode ≠ .parked) (h : s.selects (row / 24)) :
    s.writeRefusal .lays row = some statusBusy := by
  simp only [State.writeRefusal, if_neg hm, if_pos ((s.slotLocked_iff _).2 h)]

/-! ## The values (R195, R204, R207) -/

theorem signedOf_four (v : BitVec 32) : signedOf 4 v.toNat = v.toInt := by
  have := v.isLt
  rw [BitVec.toInt_eq_toNat_cond, signedOf_four_eq]
  split <;> split <;> omega

/-- R196: without the ranges the row is not written, whatever the tables hold. -/
theorem writeRow_of_bad {t : Tables} {name : TableName} {row : Nat} {pairs : List (Byte × BitVec 32)}
    (h : ¬∀ q ∈ pairs, fieldAllowed (fieldRanges name row) q.1.toNat q.2.toNat) :
    t.writeRow name row pairs = none := by
  have writes : Writes (t.writeRow name row pairs)
      (∀ q ∈ pairs, fieldAllowed (fieldRanges name row) q.1.toNat q.2.toNat) (fun _ => True) := by
    cases name with
    | line => exact (setFields_writes (line_fieldsAs 0 row) pairs t.line).map Iff.rfl (fun _ _ _ => trivial)
    | stations => exact (setFields_writes (station_fieldsAs row) pairs _).map Iff.rfl (fun _ _ _ => trivial)
    | actions => exact (setFields_writes (action_fieldsAs row) pairs _).map Iff.rfl (fun _ _ _ => trivial)
    | products => exact (setFields_writes (product_fieldsAs row) pairs _).map Iff.rfl (fun _ _ _ => trivial)
    | lays => exact (setFields_writes (lay_fieldsAs row) pairs _).map Iff.rfl (fun _ _ _ => trivial)
    | mesh => exact (setFields_writes (mesh_fieldsAs row) pairs _).map Iff.rfl (fun _ _ _ => trivial)
    | faults => exact (setFields_writes (class_fieldsAs row) pairs _).map Iff.rfl (fun _ _ _ => trivial)
  exact writes.of_not_allowed h

/-- R195: only a write of field 3 of the line settings changes the hold threshold. -/
theorem setFields_line_threshold {pairs : List (Byte × BitVec 32)} {l l' : LineSettings}
    (hw : setFields LineSettings.setField pairs l = some l') (h : ∀ q ∈ pairs, q.1 ≠ 3) :
    l'.holdThreshold = l.holdThreshold := by
  induction pairs generalizing l with
  | nil => exact congrArg LineSettings.holdThreshold (Option.some.inj hw).symm
  | cons q rest ih =>
    obtain ⟨m, hm, hrest⟩ := Option.bind_eq_some_iff.1 hw
    refine (ih hrest (fun p hp => h p (List.mem_cons_of_mem _ hp))).trans ?_
    have other : q.1.toNat ≠ 3 := fun e => h q List.mem_cons_self (BitVec.eq_of_toNat_eq e)
    unfold LineSettings.setField at hm
    split at hm
    case h_3 e => exact absurd e other
    all_goals first
      | (obtain ⟨x, -, rfl⟩ := Option.map_eq_some_iff.1 hm; rfl)
      | cases hm

theorem writeRow_threshold {t t' : Tables} {name : TableName} {row : Nat} {pairs : List (Byte × BitVec 32)}
    (hw : t.writeRow name row pairs = some t') (h : name ≠ .line ∨ ∀ q ∈ pairs, q.1 ≠ 3) :
    t'.line.holdThreshold = t.line.holdThreshold := by
  cases name with
  | line =>
    obtain ⟨l, hl, rfl⟩ := Option.map_eq_some_iff.1 hw
    exact setFields_line_threshold hl (h.resolve_left (fun hne => hne rfl))
  | stations | actions | products | lays | mesh | faults =>
    obtain ⟨x, -, rfl⟩ := Option.map_eq_some_iff.1 hw
    rfl

/-- R195: a coil target written. -/
theorem Tables.writeRow_coilTarget (t : Tables) (row : Nat) (v : BitVec 32) :
    t.writeRow .products row [(8, v)] = (inRange 100 10000000 v.toNat).map (fun x =>
      let p : ProductRow := { t.products.getD row ProductRow.powerUp with coilTarget := x }
      { t with products := t.products.set row p }) := by
  cases hv : inRange 100 10000000 v.toNat <;> simp [Tables.writeRow, setFields, ProductRow.setField, hv]

/-- R195: a hold threshold written. -/
theorem Tables.writeRow_holdThreshold (t : Tables) (row : Nat) {v : BitVec 32} (h1 : 1 ≤ v.toNat) (h12 : v.toNat ≤ 12) :
    t.writeRow .line row [(3, v)] = some { t with line.holdThreshold := v.toNat } := by
  simp [Tables.writeRow, setFields, LineSettings.setField, inRange, h1, h12]

/-! ## WRITE_FIELDS as a command -/

theorem exec_writeFields_of_reply (src : Addr) {table : Byte} {row : BitVec 16} {pairs : List (Byte × BitVec 32)}
    {s : State} {status : Byte} (h : s.TakesRequests)
    (hp : parseRequest (Request.writeFields table row pairs).encode = some (.writeFields table row pairs))
    (hc : writeFieldsRequest table.toNat row.toNat pairs s.granted = (s.granted, Reply.bare status)) :
    exec (.writeFields src table row pairs) s = .next (s.answered src [status]) :=
  requestMade_reads src (q := .writeFields table row pairs) h hp rfl hc

/-- R195: the state with these tables. -/
def State.withTables (s : State) (t : Tables) : State := { s with tables := t }

theorem exec_writeFields_of_kept_threshold (src : Addr) {table : Byte} {row : BitVec 16}
    {pairs : List (Byte × BitVec 32)} {s : State} {tables : Tables} (h : s.TakesRequests)
    (hp : parseRequest (Request.writeFields table row pairs).encode = some (.writeFields table row pairs))
    (hc : writeFieldsRequest table.toNat row.toNat pairs s.granted = (s.granted.withTables tables, Reply.ok []))
    (ht : tables.line.holdThreshold = s.tables.line.holdThreshold) :
    exec (.writeFields src table row pairs) s = .next ((s.withTables tables).answered src [0]) := by
  obtain ⟨⟨⟨-, -, hreserved, -⟩, -, harriving, hthreshold, hlevel⟩, -⟩ := id h
  have follows : (s.withTables tables).HoldOutFollows := ⟨harriving, by rw [State.withTables, ht]; exact hthreshold,
    by rw [State.withTables, ht]; exact hlevel⟩
  exact requestMade_makes src (q := .writeFields table row pairs) h hp rfl hc follows hreserved

/-- R197: a write of the hold threshold ends with HOLD-OUT set anew, by the free slots after the arrival. -/
theorem exec_writeFields_of_threshold (src : Addr) {table : Byte} {row : BitVec 16}
    {pairs : List (Byte × BitVec 32)} {s : State} {tables : Tables} (h : s.TakesRequests)
    (hp : parseRequest (Request.writeFields table row pairs).encode = some (.writeFields table row pairs))
    (hc : writeFieldsRequest table.toNat row.toNat pairs s.granted =
      ((s.granted.withTables tables).setHoldOut, Reply.ok [])) :
    exec (.writeFields src table row pairs) s = .next ((s.withTables tables).answered src [0]).setHoldOut := by
  obtain ⟨⟨⟨-, harriving, hreserved, -⟩, -⟩, -⟩ := id h
  let t := ((s.withTables tables).setHoldOut).frameConsumed .u
  have ended := endArrival_answered t src (Reply.ok []) harriving hreserved rfl
  have made : exec (.writeFields src table row pairs) s = .next (endArrival (queueReply src (Reply.ok [])
      (s.granted.withTables tables).setHoldOut)) := by
    refine (requestMade_taken src (.writeFields table row pairs) s h hp rfl).trans ?_
    exact congrArg (fun x : State × Reply => Host.Outcome.next (endArrival (queueReply src x.2 x.1))) hc
  rw [made]
  exact congrArg Host.Outcome.next ended

/-- Settles O40, by the refusals in order and then the row written. -/
theorem fieldsWritten : Obligations.FieldsWritten := by
  intro src table row pairs s h hne hlen hnodup write selected open_ between flag count16 widen allowed good shown
  have parse : parseRequest (Request.writeFields table row pairs).encode = some (.writeFields table row pairs) := by
    refine parse_encode _ (fun t r ps e => ?_)
    cases e
    exact ⟨hne, hlen, hnodup⟩
  have goodIff (name : TableName) :
      good name ↔ ∀ q ∈ pairs, fieldAllowed (fieldRanges name row.toNat) q.1.toNat q.2.toNat := by
    have ranges : allowed name = fieldRanges name row.toNat := by cases name <;> rfl
    simp only [good, ranges, fieldAllowed_iff]
  have bad (name : TableName) (hn : TableName.ofCode table.toNat = some name) (hr : name.hasRow row.toNat = true)
      (ho : open_ name) (hw : s.tables.writeRow name row.toNat pairs = none) : write = .next (s.answered src [3]) :=
    exec_writeFields_of_reply src h parse
      (writeFieldsRequest_of_bad (s := s.granted) hn hr (State.writeRefusal_of_writable (by exact ho)) hw)
  have kept (name : TableName) (hn : TableName.ofCode table.toNat = some name) (tables : Tables)
      (hr : name.hasRow row.toNat = true) (ho : open_ name) (hk : name ≠ .line ∨ ∀ q ∈ pairs, q.1 ≠ 3)
      (hw : s.tables.writeRow name row.toNat pairs = some tables) :
      write = .next (State.answered { s with tables := tables } src [0]) := by
    refine exec_writeFields_of_kept_threshold src h parse (writeFieldsRequest_of_kept_threshold (s := s.granted) hn hr
      (State.writeRefusal_of_writable (by exact ho)) hw ?_) (writeRow_threshold hw hk)
    rintro ⟨hl, q, hq, h3⟩
    exact hk.elim (fun h => h hl) (fun h => h q hq h3)
  have rethresholded (name : TableName) (hn : TableName.ofCode table.toNat = some name) (tables : Tables)
      (hr : name.hasRow row.toNat = true) (ho : open_ name) (hl : name = .line) (h3 : ∃ q ∈ pairs, q.1 = 3)
      (hw : s.tables.writeRow name row.toNat pairs = some tables) :
      write = .next (State.answered { s with tables := tables } src [0]).setHoldOut :=
    exec_writeFields_of_threshold src h parse (writeFieldsRequest_of_threshold (s := s.granted) hn hr
      (State.writeRefusal_of_writable (by exact ho)) hw ⟨hl, h3⟩)
  refine ⟨fun hn => ?_, fun name hn => ⟨fun hr => ?_, fun hr hm hp hl => ?_, fun hr hm hp hs => ?_,
    fun hr hm hl hs => ?_, bad name hn, kept name hn, rethresholded name hn, fun hr ho hg => ?_,
    fun hr ho hg hin => ?_⟩, fun v ht hrow hpairs hm => ?_, fun v ht hrow hpairs hm h1 h12 => ?_⟩
  · exact exec_writeFields_of_reply src h parse (writeFieldsRequest_of_unnamed _ _ s.granted hn)
  · exact exec_writeFields_of_reply src h parse (writeFieldsRequest_of_no_row (s := s.granted) hn hr)
  · exact exec_writeFields_of_reply src h parse (writeFieldsRequest_of_refused (s := s.granted) hn hr
      (State.writeRefusal_of_fixed _ (by exact hm) hp hl))
  · subst hp
    exact exec_writeFields_of_reply src h parse (writeFieldsRequest_of_refused (s := s.granted) hn hr
      (State.writeRefusal_of_product (by exact hm) (by exact hs)))
  · subst hl
    exact exec_writeFields_of_reply src h parse (writeFieldsRequest_of_refused (s := s.granted) hn hr
      (State.writeRefusal_of_lay (by exact hm) (by exact hs)))
  · exact bad name hn hr ho (writeRow_of_bad (mt (goodIff name).2 hg))
  · obtain ⟨tables, hw, fields, others⟩ :=
      (writeRow_writes s name row.toNat pairs hin hr).of_allowed ((goodIff name).1 hg)
    have shownEq : (fun (l : List Int) (q : Byte × BitVec 32) =>
        l.set q.1.toNat (fieldShown name q.1.toNat q.2.toNat)) = fun l q => l.set q.1.toNat (shown name q) := by
      funext l q
      have four : q.1.toNat = 4 ↔ q.1 = 4 := ⟨fun e => BitVec.eq_of_toNat_eq e, fun e => by rw [e]; rfl⟩
      have five : q.1.toNat = 5 ↔ q.1 = 5 := ⟨fun e => BitVec.eq_of_toNat_eq e, fun e => by rw [e]; rfl⟩
      simp only [fieldShown, shown, four, five, signedOf_four]
    rw [shownEq] at fields
    exact ⟨tables, hw, fields, others⟩
  · have hn : TableName.ofCode table.toNat = some .products := by rw [ht]; rfl
    have hr : TableName.hasRow .products row.toNat = true := by simpa [TableName.hasRow] using hrow
    have setTarget := s.tables.writeRow_coilTarget row.toNat v
    rw [← hpairs] at setTarget
    refine ⟨fun hlo hhi => kept _ hn _ hr (.inl hm) (.inl (by decide)) ?_, fun hv => bad _ hn hr (.inl hm) ?_⟩
    · rw [setTarget, inRange, if_pos ⟨hlo, hhi⟩]
      rfl
    · rw [setTarget, inRange, if_neg (by omega)]
      rfl
  · have hn : TableName.ofCode table.toNat = some .line := by rw [ht]; rfl
    have hr : TableName.hasRow .line row.toNat = true := by rw [hrow]; rfl
    refine rethresholded _ hn _ hr (.inl hm) rfl ⟨(3, v), by simp [hpairs], rfl⟩ ?_
    rw [hpairs, s.tables.writeRow_holdThreshold row.toNat h1 h12]

end Sys2Proof.Machine

/-! SET_NEXT and RELEASE (R15, R113): the requests on their branches and the two statements. -/

namespace Sys2Proof.Machine

/-! ## SET_NEXT (R113) -/

theorem slot_of_val {i : Slot} {slot : Byte} (h : i.val = slot.toNat) : Fin.ofNat 8 slot.toNat = i := by
  rw [← h]
  exact Fin.ofNat_val_eq_self i

/-- R6, R206: the reply that names the table and row an examination fails at. -/
theorem invalidTable_data (table row : Nat) :
    Reply.invalidTable (table, row) = { status := 7, data := enc1 table ++ enc2 row, mark := .plain } := rfl

theorem setNextRequest_none (s : State) : setNextRequest 255 s = ({ s with coil.next := none }, Reply.ok []) :=
  if_pos rfl

theorem setNextRequest_of_above {slot : Nat} (s : State) (h : 7 < slot) (hne : slot ≠ 255) :
    setNextRequest slot s = (s, Reply.bare statusBadRow) := by
  rw [setNextRequest, if_neg hne, if_neg (by omega)]

theorem setNextRequest_of_failing {i : Slot} {slot : Byte} {s : State} {failure : Nat × Nat} (hi : i.val = slot.toNat)
    (he : examineProduct s.tables i = some failure) :
    setNextRequest slot.toNat s = (s, Reply.invalidTable failure) := by
  have := i.isLt
  rw [setNextRequest, if_neg (by omega), if_pos (by omega), slot_of_val hi]
  simp only [he]

theorem setNextRequest_of_passing {i : Slot} {slot : Byte} {s : State} (hi : i.val = slot.toNat)
    (he : examineProduct s.tables i = none) :
    setNextRequest slot.toNat s = ({ s with coil.next := some i }, Reply.ok []) := by
  have := i.isLt
  rw [setNextRequest, if_neg (by omega), if_pos (by omega), slot_of_val hi]
  simp only [he]

/-- Settles O43. -/
theorem nextProductSet : Obligations.NextProductSet := by
  intro src slot s h set
  obtain ⟨⟨⟨-, -, hreserved, -⟩, -, hfollows⟩, -⟩ := id h
  have available (hm : s.mode ≠ .parked) : (Request.setNext slot).availableIn s.mode = true := by
    simpa [Request.availableIn] using hm
  refine ⟨fun hm => ?_, fun hm hs => ?_, fun hm hs hne => ?_, fun i hi hm => ⟨fun table row he => ?_, fun he => ?_⟩⟩
  · exact requestMade_notInMode src (.setNext slot) s h rfl (by simp [Request.availableIn, hm])
  · subst hs
    exact requestMade_makes src (q := .setNext 255) (t := { s with coil.next := none }) h rfl (available hm)
      (setNextRequest_none s.granted) hfollows hreserved
  · have other : slot.toNat ≠ 255 := fun e => hne (BitVec.eq_of_toNat_eq e)
    exact requestMade_reads src (q := .setNext slot) h rfl (available hm)
      (setNextRequest_of_above s.granted hs other)
  · exact requestMade_reads src (q := .setNext slot) h rfl (available hm)
      (setNextRequest_of_failing (s := s.granted) hi he)
  · exact requestMade_makes src (q := .setNext slot) (t := { s with coil.next := some i }) h rfl (available hm)
      (setNextRequest_of_passing (s := s.granted) hi he) hfollows hreserved

/-! ## RELEASE (R15) -/

theorem State.hasRecordOfClass_iff (s : State) (c : FaultClass) :
    s.hasRecordOfClass c = true ↔ ∃ r ∈ s.faults.list, r.classTaken = c := by
  simp [State.hasRecordOfClass]

theorem State.latchHoldsHalt_iff (s : State) :
    s.latchHoldsHalt = true ↔ s.store.latchPending = some .halt ∨ s.store.latchInFlight = some .halt := by
  simp [State.latchHoldsHalt]

theorem releaseLine_granted (s : State) : releaseLine s.granted = (releaseLine s).granted := by
  show releaseMesh (releaseHeads { s.granted with mode := .threading }) = _
  have product : (releaseHeads { s.granted with mode := .threading }).product = s.product := rfl
  have product' : (releaseHeads { s with mode := .threading }).product = s.product := rfl
  rw [releaseLine, releaseMesh, releaseMesh, product, product']
  cases s.product.kind <;> rfl

theorem releaseLine_mesh (s : State) : (releaseLine s).mesh = match s.product.kind with
    | .twineNet => { s.mesh with cursor.expected := none, cursor.pitchRef := none }
    | .rope => s.mesh :=
  releaseMesh_mesh _

theorem releaseLine_mode (s : State) : (releaseLine s).mode = .threading := by simp [releaseLine]

theorem releaseLine_head (s : State) (u : HeadUnit) : (releaseLine s).head u =
    if (s.head u).state = .broken then (s.head u).restartBy (s.layRow u).inUse else s.head u := by
  have mesh (t : State) : (releaseMesh t).head u = t.head u := by simp [State.head]
  exact (mesh _).trans (releaseHeads_head _ u)

/-- R3, R130: an answer changes the store and a port's counters alone. -/
theorem State.answered_keeps (s : State) (dst : Addr) (reply : List Byte) :
    (s.answered dst reply).mode = s.mode ∧ (s.answered dst reply).tally = s.tally ∧
    (s.answered dst reply).lay = s.lay ∧ (s.answered dst reply).mesh = s.mesh ∧
    (s.answered dst reply).coil = s.coil ∧ (s.answered dst reply).faults = s.faults :=
  ⟨rfl, rfl, rfl, rfl, rfl, rfl⟩

theorem State.answered_store (s : State) (dst : Addr) (reply : List Byte) : (s.answered dst reply).store =
    { s.store with iqu := s.store.iqu ++ [{ frame := s.originate dst .mrep reply, mark := .plain }] } := rfl

theorem State.answered_head (s : State) (dst : Addr) (reply : List Byte) (u : HeadUnit) :
    (s.answered dst reply).head u = s.head u := rfl

/-- Settles O44, by what keeps the line from being released. -/
theorem lineReleased : Obligations.LineReleased := by
  intro src s h halts latched
  obtain ⟨⟨⟨-, -, hreserved, -⟩, -, hfollows⟩, -⟩ := id h
  have available (hm : s.mode = .halted) : Request.release.availableIn s.mode = true := by rw [hm]; rfl
  have haltsIff : s.granted.hasRecordOfClass .halt = true ↔ halts := s.granted.hasRecordOfClass_iff .halt
  have latchedIff : s.granted.latchHoldsHalt = true ↔ latched := s.granted.latchHoldsHalt_iff
  refine ⟨fun hm => ?_, fun hm hh => ?_, fun hm hh hl => ?_, fun hm hh hl => ?_⟩
  · exact requestMade_notInMode src .release s h rfl (by simpa [Request.availableIn] using hm)
  · exact requestMade_reads src (q := .release) h rfl (available hm) (if_pos (haltsIff.2 hh))
  · exact requestMade_reads src (q := .release) h rfl (available hm)
      ((if_neg (mt haltsIff.1 hh)).trans (if_pos (latchedIff.2 hl)))
  · have released : releaseRequest s.granted = ((releaseLine s).granted, Reply.ok []) := by
      rw [← releaseLine_granted]
      exact (if_neg (mt haltsIff.1 hh)).trans (if_neg (mt latchedIff.1 hl))
    have follows : (releaseLine s).HoldOutFollows := hof_of hfollows (.of_view (by simp [storeView])) (by simp) (by simp)
    refine ⟨_, requestMade_makes src (q := .release) h rfl (available hm) released follows (by simpa using hreserved),
      releaseLine_mode s, ?_, ?_, ?_, fun u => ⟨fun hu => ?_, fun hu => ?_⟩, fun hk => ?_, fun hk => ?_, ?_⟩
    · simp [State.answered_keeps]
    · simp [State.answered_keeps]
    · simp [State.answered_keeps]
    · rw [State.answered_head, releaseLine_head, if_neg hu]
    · rw [State.answered_head, releaseLine_head, if_pos hu]
      rfl
    · simp [State.answered_keeps, releaseLine_mesh, hk]
    · simp [State.answered_keeps, releaseLine_mesh, hk]
    · simp [State.answered_store, State.originate, statusOk]

end Sys2Proof.Machine

/-! Departures (R150, R168, R169): what each origin's frame leaves, and the effects that wait for a reply's
departure (R200 to R202). -/

namespace Sys2Proof.Machine

/-! ## A departure begun -/

theorem exec_departure (p : Port) {s : State} (hr : s.resetIn = false) :
    exec (.departure p) s = .next (departure p s) := by
  change Host.Outcome.next (whenWorking s (departure p)) = _
  rw [whenWorking_of_released s _ hr]

/-- R150: the state with a port's frame counted as sent and its holding stage put to `x`. -/
def State.sentWith (s : State) (p : Port) (x : Option Holding) : State :=
  s.setPort p { s.port p with transmitter := x, counters.framesSent := bump (s.port p).counters.framesSent }

theorem departure_of_idle {p : Port} {s : State} (h : (s.port p).transmitter = none) : departure p s = s := by
  rw [departure, h]

section
variable {f : Frame} {m : InjMark} {parity : Bool} {s : State}

/-- R168: a forwarded frame's slot is free before its departure is reported. -/
theorem departure_forwarded (p : Port)
    (ht : (s.port p).transmitter = some { frame := f, origin := .forwarded, parity := parity, released := false }) :
    departure p s = match p with
      | .d => emptyStage .d (cutreqDeparted f (s.sentWith .d
          (some { frame := f, origin := .forwarded, parity := parity, released := true })).setHoldOut)
      | .u => emptyStage .u (s.sentWith .u
          (some { frame := f, origin := .forwarded, parity := parity, released := true })).setHoldOut := by
  rw [departure, ht]
  cases p <;> rfl

theorem departure_latch
    (ht : s.portD.transmitter = some { frame := f, origin := .latch, parity := parity, released := false }) :
    departure .d s = { s.sentWith .d none with store.latchInFlight := none } := by
  have ht' : (s.port .d).transmitter = _ := ht
  rw [departure, ht']
  rfl

theorem departure_injected_d
    (ht : s.portD.transmitter = some { frame := f, origin := .injected m, parity := parity, released := false }) :
    departure .d s = emptyStage .d (iqdDeparted (cutreqDeparted f (s.sentWith .d
      (some { frame := f, origin := .injected m, parity := parity, released := true })))) := by
  have ht' : (s.port .d).transmitter = _ := ht
  rw [departure, ht']
  rfl

end

/-! ## The holding stage emptied (R150) -/

/-- A released frame counts in no group: with its stage emptied the room stays. -/
theorem iqdHeld_sentWith_released (s : State) (h : Holding) :
    (s.sentWith .d (some { h with released := true })).iqdHeld = (s.sentWith .d none).iqdHeld := by
  obtain ⟨frame, origin, parity, released⟩ := h
  cases origin <;> rfl

theorem emptyStage_setHoldOut (p : Port) (s : State) (h : Holding) :
    emptyStage p (s.sentWith p (some { h with released := true })).setHoldOut = (s.sentWith p none).setHoldOut := by
  have slots : transmitterSlots (some { h with released := true }) = transmitterSlots none :=
    if_neg (fun e => Bool.noConfusion e.2)
  have free : (s.sentWith p (some { h with released := true })).freeForwarding = (s.sentWith p none).freeForwarding := by
    cases p <;> simp only [State.freeForwarding, State.heldForwarding, State.sentWith, State.setPort, State.port, slots]
  rw [State.setHoldOut, State.setHoldOut, free]
  cases p <;> rfl

theorem emptyStage_cutreqDeparted (f : Frame) (s : State) :
    emptyStage .d (cutreqDeparted f s) = cutreqDeparted f (emptyStage .d s) := by
  rw [cutreqDeparted, cutreqDeparted, apply_ite (emptyStage .d)]
  rfl

theorem emptyStage_servePending {s : State} (h : (emptyStage .d s).iqdHeld = s.iqdHeld) :
    emptyStage .d (servePending s) = servePending (emptyStage .d s) := by
  rw [servePending, servePending, apply_ite (emptyStage .d), State.iqdRoom, State.iqdRoom, h]
  rfl

theorem emptyStage_iqdDeparted {s : State} (h : (emptyStage .d s).iqdHeld = s.iqdHeld) :
    emptyStage .d (iqdDeparted s) = iqdDeparted (emptyStage .d s) := by
  have sent : (emptyStage .d (sendCutreq s)).iqdHeld = (sendCutreq s).iqdHeld := by
    simp only [State.iqdHeld, sendCutreq] at h ⊢
    simp [emptyStage, State.setTransmitter, State.setPort, setOpenState, State.queueIqd] at h ⊢
    omega
  by_cases hc : (s.coil.openCoil.state = .cutWaitSend && s.iqdRoom) = true
  · have hc' : ((emptyStage .d s).coil.openCoil.state = .cutWaitSend && (emptyStage .d s).iqdRoom) = true := by
      rwa [State.iqdRoom, h]
    rw [iqdDeparted, iqdDeparted, if_pos hc, if_pos hc', emptyStage_servePending sent]
    rfl
  · have hc' : ¬((emptyStage .d s).coil.openCoil.state = .cutWaitSend && (emptyStage .d s).iqdRoom) = true := by
      rwa [State.iqdRoom, h]
    rw [iqdDeparted, iqdDeparted, if_neg hc, if_neg hc', emptyStage_servePending h]

/-! ## The report of a CUTREQ (R33) -/

theorem cutreqDeparted_eq (f : Frame) (s : State) : cutreqDeparted f s =
    if f.kind = 9 ∧ 2 ≤ f.payload.length ∧ numberAt f.payload 1 2 = s.coil.openCoil.number
      ∧ s.coil.openCoil.state = .cutting then presetCutwait s else s := by
  refine ite_congr (propext ?_) (fun _ => rfl) (fun _ => rfl)
  rw [FrameKind.ofCode_eq_iff (by decide), State.answers_iff, eq_comm (a := s.coil.openCoil.number)]
  rfl

theorem cutreqDeparted_of_starts {f : Frame} {s : State} (h : f.kind = 9 ∧ 2 ≤ f.payload.length
    ∧ numberAt f.payload 1 2 = s.coil.openCoil.number ∧ s.coil.openCoil.state = .cutting) :
    cutreqDeparted f s = presetCutwait s := (cutreqDeparted_eq f s).trans (if_pos h)

theorem cutreqDeparted_of_not {f : Frame} {s : State} (h : ¬(f.kind = 9 ∧ 2 ≤ f.payload.length
    ∧ numberAt f.payload 1 2 = s.coil.openCoil.number ∧ s.coil.openCoil.state = .cutting)) :
    cutreqDeparted f s = s := (cutreqDeparted_eq f s).trans (if_neg h)

/-! ## The entry an IQD departure frees (R96, R103) -/

theorem iqdDeparted_of_waiting {s : State} (h : s.coil.openCoil.state = .cutWaitSend) (hi : s.iqdHeld < 4) :
    iqdDeparted s = servePending (sendCutreq s) := by
  rw [iqdDeparted, if_pos (by simp [h, State.iqdRoom, hi])]

theorem iqdDeparted_of_not {s : State} (h : s.coil.openCoil.state ≠ .cutWaitSend) :
    iqdDeparted s = servePending s := by
  rw [iqdDeparted, if_neg (by simp [h])]

theorem iqdHeld_sendCutreq (s : State) : (sendCutreq s).iqdHeld = s.iqdHeld + 1 := by
  simp [State.iqdHeld, sendCutreq]
  omega

/-- R103: with room, a pending TAKE is served as a TAKE would be. -/
theorem servePending_eq_take {s : State} (hr : s.resetIn = false) (hp : s.coil.pendingTake = true) (hi : s.iqdHeld < 4) :
    Host.Outcome.next (servePending s) = exec (.take []) { s with coil.pendingTake := false } := by
  have take := exec_take [] (s := { s with coil.pendingTake := false }) hr
  have sent := takeReceived_of_room (s := { s with coil.pendingTake := false }) rfl hi
  exact (congrArg _ ((servePending_serves s hp hi).trans sent.symm)).trans take.symm

/-! ## Departures on Port D, and forwarded ones (R168) -/

section
variable {f : Frame} {m : InjMark} {parity : Bool} {s : State}

theorem departure_forwarded_d
    (ht : s.portD.transmitter = some { frame := f, origin := .forwarded, parity := parity, released := false }) :
    departure .d s = cutreqDeparted f (s.sentWith .d none).setHoldOut := by
  rw [departure_forwarded .d ht]
  exact (emptyStage_cutreqDeparted f _).trans (congrArg (cutreqDeparted f)
    (emptyStage_setHoldOut .d s { frame := f, origin := .forwarded, parity := parity, released := false }))

theorem departure_forwarded_u
    (ht : s.portU.transmitter = some { frame := f, origin := .forwarded, parity := parity, released := false }) :
    departure .u s = (s.sentWith .u none).setHoldOut := by
  rw [departure_forwarded .u ht]
  exact emptyStage_setHoldOut .u s { frame := f, origin := .forwarded, parity := parity, released := false }

theorem cutreqDeparted_iqdHeld (f : Frame) (s : State) : (cutreqDeparted f s).iqdHeld = s.iqdHeld := by
  rw [cutreqDeparted_eq]
  split <;> rfl

theorem departure_iqd
    (ht : s.portD.transmitter = some { frame := f, origin := .injected m, parity := parity, released := false }) :
    departure .d s = iqdDeparted (cutreqDeparted f (s.sentWith .d none)) := by
  have room := iqdHeld_sentWith_released s { frame := f, origin := .injected m, parity := parity, released := false }
  have emptied (x : Option Holding) : emptyStage .d (s.sentWith .d x) = s.sentWith .d none := rfl
  rw [departure_injected_d ht, emptyStage_iqdDeparted ?_, emptyStage_cutreqDeparted, emptied]
  rw [emptyStage_cutreqDeparted, emptied, cutreqDeparted_iqdHeld, cutreqDeparted_iqdHeld, room]

/-- R159: the departing frame's own entry is free. -/
theorem iqdHeld_sentWith_none
    (ht : s.portD.transmitter = some { frame := f, origin := .injected m, parity := parity, released := false }) :
    s.iqdHeld = (s.sentWith .d none).iqdHeld + 1 := by
  rw [State.iqdHeld, ht]
  rfl

end

/-! ## Departures on Port U (R169) -/

section
variable {f : Frame} {m : InjMark} {parity : Bool} {s : State}

/-- R169: with no request held and no record that waits, an IQU departure reports its mark alone. -/
theorem departure_iqu_idle (hm : m ≠ .resetReply)
    (ht : s.portU.transmitter = some { frame := f, origin := .injected m, parity := parity, released := false })
    (hh : s.store.hold = none) (hw : (reportMark m s).faults.list.filter FaultRecord.waits = []) :
    departure .u s = reportMark m (s.sentWith .u none) := by
  let sent := s.sentWith .u (some { frame := f, origin := .injected m, parity := parity, released := true })
  have held : takeHeld (reportMark m sent) = reportMark m sent := by
    have none : (reportMark m sent).store.hold = none := by cases m <;> exact hh
    rw [takeHeld, none]
  have idle : sendAlarms (reportMark m sent) = reportMark m sent :=
    sendAlarms_idle _ (.inl (by cases m <;> exact hw))
  have e : departure .u s = emptyStage .u (sendAlarms (takeHeld (reportMark m sent))) :=
    departure_injected f m parity s hm ht
  rw [e, held, idle]
  cases m <;> rfl

theorem waits_eq_nil_iff (l : List FaultRecord) :
    l.filter FaultRecord.waits = [] ↔ ∀ r ∈ l, r.notified = true ∨ r.queued = true := by
  rw [List.filter_eq_nil_iff]
  refine forall₂_congr (fun r _ => ?_)
  cases hn : r.notified <;> cases hq : r.queued <;> simp [FaultRecord.waits, hn, hq]

end

/-- Settles O50, by the port and the origin of the departing frame. -/
theorem frameDeparts : Obligations.FrameDeparts := by
  intro f o parity s hr holding sentD sentU starts watch
  have step (p : Port) := exec_departure p hr
  refine ⟨fun p hp => ?_, fun ht ho => ?_, fun ht ho => ?_, fun ht ho => ?_, fun ht ho hp hc => ?_, fun ht ho hi => ?_,
    fun i ht ho hh hw => ?_⟩
  · rw [step, departure_of_idle hp]
  · subst ho
    rw [step, departure_forwarded_d ht]
    exact ⟨fun hs => congrArg _ (cutreqDeparted_of_starts hs), fun hs => congrArg _ (cutreqDeparted_of_not hs)⟩
  · subst ho
    rw [step, departure_forwarded_u ht]
    rfl
  · subst ho
    rw [step, departure_latch ht]
    rfl
  · subst ho
    rw [step, departure_iqd ht]
    have idle (x : State) (hx : x.coil = s.coil) : iqdDeparted x = x := by
      rw [iqdDeparted_of_not (hx ▸ hc), servePending_idle _ (by simp [hx, hp])]
    refine ⟨fun hs => ?_, fun hs => ?_⟩
    · rw [cutreqDeparted_of_starts (s := s.sentWith .d none) hs]
      exact congrArg _ (idle _ rfl)
    · rw [cutreqDeparted_of_not (s := s.sentWith .d none) hs]
      exact congrArg _ (idle _ rfl)
  · subst ho
    intro cut base taken
    have room := iqdHeld_sentWith_none ht
    have held : (sendCutreq (s.sentWith .d none)).iqdHeld = s.iqdHeld := (iqdHeld_sendCutreq _).trans room.symm
    have served (hc : s.coil.openCoil.state = .cutWaitSend) :
        exec (.departure .d) s = .next (servePending (sendCutreq (s.sentWith .d none))) := by
      have other : ¬starts := fun ⟨_, _, _, cutting⟩ => by simp [hc] at cutting
      rw [step, departure_iqd ht, cutreqDeparted_of_not (s := s.sentWith .d none) other,
        iqdDeparted_of_waiting (s := s.sentWith .d none) hc (by omega)]
    refine ⟨fun hc hp => ?_, fun hc hp h4 => ?_, fun hc hp h4 => ?_, fun hc hp => ?_⟩
    · rw [served hc, servePending_idle _ (fun h => by simp [State.sentWith, hp] at h)]
      rfl
    · rw [served hc, servePending_idle _ (fun h => by omega)]
      rfl
    · rw [served hc]
      exact servePending_eq_take hr hp (by omega)
    · have reported : cutreqDeparted f (s.sentWith .d none) = base := cutreqDeparted_eq f (s.sentWith .d none)
      have coil : base.coil = s.coil := by simp only [base]; split <;> rfl
      have entries : base.iqdHeld = (s.sentWith .d none).iqdHeld := by rw [← reported, cutreqDeparted_iqdHeld]
      have working : base.resetIn = false := by simp only [base]; split <;> exact hr
      rw [step, departure_iqd ht, reported, iqdDeparted_of_not (coil ▸ hc)]
      exact servePending_eq_take working (by rw [coil, hp]) (by omega)
  · subst ho
    rw [step, departure_iqu_idle (by simp) ht hh ?_]
    · rfl
    · rw [waits_eq_nil_iff]
      intro r hm
      obtain ⟨x, hx, rfl⟩ := List.mem_map.1 hm
      by_cases hi : x.identity = i
      · simp [hi]
      · simpa [hi] using hw x hx

end Sys2Proof.Machine

/-! SET_ADDRESS and RESET (R200 to R202): the requests, and their effects at their replies' departures. -/

namespace Sys2Proof.Machine

/-! ## A reply that waits for its departure (R201, R202) -/

/-- R193: a request that changes nothing and whose reply's departure has an effect. -/
theorem requestMade_marked (src : Addr) {q : Request} {s : State} {r : Reply} (h : s.TakesRequests)
    (hp : parseRequest q.encode = some q) (ha : q.availableIn s.mode = true)
    (hc : carryOut q s.granted = (s.granted, r)) : requestMade src q s =
      .next ((s.frameConsumed .u).queueIqu (s.originate src .mrep (r.status :: r.data)) r.mark) := by
  obtain ⟨⟨⟨-, -, hreserved, -⟩, -, hfollows⟩, -⟩ := id h
  exact requestMade_answered src q s (s.frameConsumed .u) r h hp ha hc hfollows.1 hreserved
    (setHoldOut_of_follows _ hfollows)

/-! ## SET_ADDRESS (R200) -/

theorem setAddressRequest_of_outside {a : Nat} (s : State) (h : a = 0 ∨ 127 < a) :
    setAddressRequest a s = (s, Reply.bare statusBadValue) := if_pos h

theorem setAddressRequest_of_master (s : State) : setAddressRequest 127 s = (s, Reply.bare statusBusy) := rfl

theorem setAddressRequest_of_inUse {a : Nat} {s : State} (h0 : a ≠ 0) (h : a < 127)
    (hu : (s.tables.station a).role ≠ .unused) : setAddressRequest a s = (s, Reply.bare statusBusy) := by
  rw [setAddressRequest, if_neg (by omega), if_neg (by omega), if_pos hu]

theorem setAddressRequest_of_free {a : Nat} {s : State} (h0 : a ≠ 0) (h : a < 127)
    (hu : (s.tables.station a).role = .unused) :
    setAddressRequest a s = (s, { status := statusOk, data := [], mark := .newAddress (BitVec.ofNat 7 a) }) := by
  rw [setAddressRequest, if_neg (by omega), if_neg (by omega), if_neg (not_not_intro hu)]

/-- R201: the effect of SET_ADDRESS at the departure of its reply. -/
theorem departure_newAddress_ownAddress {f : Frame} {parity : Bool} {a : Addr} {s : State}
    (ht : s.portU.transmitter = some
      { frame := f, origin := .injected (.newAddress a), parity := parity, released := false }) :
    (departure .u s).ownAddress = a := by
  rw [departure_injected f _ parity s (by simp) ht]
  simp [reportMark]

/-- R172, R192: the held request is answered from the address in force. -/
theorem takeHeld_reply_mem {q : Frame} {s : State} (hh : s.store.hold = some q) :
    ∃ e ∈ (takeHeld s).store.iqu, e.frame.dst = q.src ∧ e.frame.src = s.ownAddress ∧ e.frame.kind = 17 := by
  rw [takeHeld, hh]
  refine ⟨_, List.mem_append_right _ (List.mem_singleton_self _), rfl, ?_, rfl⟩
  simp [State.originate, reserveEntry]

/-- R130: the examination takes nothing out of IQU. -/
theorem mem_sendAlarms_iqu {e : InjFrame} {s : State} (h : e ∈ s.store.iqu) : e ∈ (sendAlarms s).store.iqu := by
  rw [sendAlarms_served]
  exact List.mem_append_left _ h

/-- Settles O46. -/
theorem addressSet : Obligations.AddressSet := by
  refine ⟨fun src address s h => ?_, fun f parity a s hr ht => ⟨fun hh hw => ?_, ?_⟩⟩
  · intro set
    have available (hm : s.mode = .parked) : (Request.setAddress address).availableIn s.mode = true := by
      rw [hm]
      rfl
    have value (n : Nat) (hn : n < 256) (ha : address ≠ BitVec.ofNat 8 n) : address.toNat ≠ n :=
      fun e => ha (BitVec.eq_of_toNat_eq (by rw [e, BitVec.toNat_ofNat]; exact (Nat.mod_eq_of_lt hn).symm))
    refine ⟨fun hm => ?_, fun hm ha => ?_, fun hm ha => ?_, fun hm h0 hlt hu => ?_, fun hm h0 hlt hu => ?_⟩
    · exact requestMade_notInMode src (.setAddress address) s h rfl (by simpa [Request.availableIn] using hm)
    · exact requestMade_reads src (q := .setAddress address) h rfl (available hm)
        (setAddressRequest_of_outside _ (ha.imp_left (fun e => by rw [e]; rfl)))
    · subst ha
      exact requestMade_reads src (q := .setAddress 127) h rfl (available hm) (setAddressRequest_of_master _)
    · exact requestMade_reads src (q := .setAddress address) h rfl (available hm)
        (setAddressRequest_of_inUse (s := s.granted) (value 0 (by omega) h0) hlt hu)
    · have mark : BitVec.ofNat 7 address.toNat = address.setWidth 7 := BitVec.ofNat_toNat 7 address
      rw [← mark]
      exact requestMade_marked src (q := .setAddress address) h rfl (available hm)
        (setAddressRequest_of_free (s := s.granted) (value 0 (by omega) h0) hlt hu)
  · rw [exec_departure .u hr, departure_iqu_idle (by simp) ht hh ((waits_eq_nil_iff _).2 hw)]
    rfl
  · refine ⟨_, exec_departure .u hr, departure_newAddress_ownAddress ht, fun q hq => ?_⟩
    rw [departure_injected f _ parity s (by simp) ht]
    obtain ⟨e, he, hdst, hsrc, hkind⟩ := takeHeld_reply_mem (s := reportMark (.newAddress a) (s.sentWith .u (some
      { frame := f, origin := .injected (.newAddress a), parity := parity, released := true }))) hq
    exact ⟨e, mem_sendAlarms_iqu he, hdst, hsrc, hkind⟩

/-! ## RESET (R202) -/

theorem departure_resetReply {f : Frame} {parity : Bool} {s : State}
    (ht : s.portU.transmitter = some { frame := f, origin := .injected .resetReply, parity := parity, released := false }) :
    departure .u s = resetRequestEffect s := by
  have ht' : (s.port .u).transmitter = _ := ht
  rw [departure, ht']
  rfl

/-- Settles O47. -/
theorem resetRequested_holds : Obligations.ResetRequested := by
  refine ⟨fun src s h => ⟨fun hm => ?_, fun hm => ?_⟩, fun f parity s hr ht => ?_⟩
  · exact requestMade_notInMode src .reset s h rfl (by simpa [Request.availableIn] using hm)
  · exact requestMade_marked src (q := .reset) h rfl (by rw [hm]; rfl) rfl
  · rw [exec_departure .u hr, departure_resetReply ht]
    rfl

end Sys2Proof.Machine

/-! The departure of an IQU frame serves what waits for its entry (R128 to R130, R169, R172). -/

namespace Sys2Proof.Machine

/-- R169: the state at the taking of a held request: the mark reported, the departing frame counted and released. -/
def State.departing (s : State) (own : Addr) (records : List FaultRecord) (h : Holding) : State :=
  { s with
    ownAddress := own, faults.list := records
    portU := { s.portU with transmitter := some h, counters.framesSent := bump s.portU.counters.framesSent } }

section
variable {s : State} {own : Addr} {records : List FaultRecord} {h : Holding} {q : Frame}

theorem departing_iquHeld {m : InjMark} {f : Frame} {parity : Bool} (ht : s.portU.transmitter = some
      { frame := f, origin := .injected m, parity := parity, released := false }) :
    s.iquHeld = (s.departing own records
      { frame := f, origin := .injected m, parity := parity, released := true }).iquHeld + 1 := by
  rw [State.iquHeld, ht]
  show s.store.iqu.length + 1 + s.store.reserved.toNat = s.store.iqu.length + 0 + s.store.reserved.toNat + 1
  omega

/-! ## The held request taken (R172) -/

theorem takeHeld_of_none {s : State} (hh : s.store.hold = none) : takeHeld s = s := by rw [takeHeld, hh]

theorem takeHeld_of_some {s : State} (hh : s.store.hold = some q) :
    takeHeld s = { takeRequest q s with store.hold := none }.setHoldOut := by rw [takeHeld, hh]

/-- R163: the reply takes the entry reserved for it. -/
theorem queueReply_iquHeld (dst : Addr) (r : Reply) {s : State} (hr : s.store.reserved = true) :
    (queueReply dst r s).iquHeld = s.iquHeld := by
  simp [State.iquHeld, queueReply, hr]
  omega

theorem reserveEntry_iquHeld {s : State} (hr : s.store.reserved = false) :
    (reserveEntry s).iquHeld = s.iquHeld + 1 := by
  simp [State.iquHeld, reserveEntry, hr]

/-- R163: the taking of the held request fills one entry more at least. -/
theorem takeHeld_iquHeld {s : State} (hh : s.store.hold = some q) (hr : s.store.reserved = false) :
    s.iquHeld + 1 ≤ (takeHeld s).iquHeld := by
  have grows := perform_grows q.payload (reserveEntry s)
  have held : (takeHeld s).iquHeld = (perform q.payload (reserveEntry s)).1.iquHeld := by
    rw [takeHeld_of_some hh]
    exact queueReply_iquHeld _ _ (grows.reserved.trans rfl)
  rw [held, ← reserveEntry_iquHeld hr]
  exact grows.iqu

theorem takeHeld_hold (s : State) : (takeHeld s).store.hold = none := by
  cases hh : s.store.hold with
  | none => rw [takeHeld_of_none hh, hh]
  | some q => rw [takeHeld_of_some hh]; rfl

/-- R130, R172: where a record that waits finds no entry, the examination after the taking is idle. -/
theorem sendAlarms_takeHeld_of_full {s : State} (hh : s.store.hold = some q) (hr : s.store.reserved = false)
    (hi : 3 ≤ s.iquHeld) : sendAlarms (takeHeld s) = takeHeld s :=
  sendAlarms_idle _ (.inr (Nat.le_trans (by omega) (takeHeld_iquHeld hh hr)))

/-- R172: a held request refused is answered, and nothing else of it is left. -/
theorem takeHeld_of_refused {s : State} {status : Byte} (hh : s.store.hold = some q)
    (hp : perform q.payload (reserveEntry s) = (reserveEntry s, Reply.bare status)) :
    takeHeld s = { queueReply q.src (Reply.bare status) (reserveEntry s) with store.hold := none }.setHoldOut := by
  rw [takeHeld_of_some hh, takeRequest, hp]

/-- R130, R172: after a refusal the examination is idle where no entry is free or no record waits. -/
theorem sendAlarms_takeHeld_of_refused {s : State} {status : Byte} (hh : s.store.hold = some q)
    (hr : s.store.reserved = false) (hp : perform q.payload (reserveEntry s) = (reserveEntry s, Reply.bare status))
    (hw : 3 ≤ s.iquHeld ∨ s.faults.list.filter FaultRecord.waits = []) :
    sendAlarms (takeHeld s) =
      { queueReply q.src (Reply.bare status) (reserveEntry s) with store.hold := none }.setHoldOut := by
  rw [← takeHeld_of_refused hh hp]
  refine hw.elim (sendAlarms_takeHeld_of_full hh hr) (fun hw => sendAlarms_idle _ (.inl ?_))
  rw [takeHeld_of_refused hh hp]
  exact hw

/-- R150, R163, R172: the state the taking of the held request ends in, the stage emptied. -/
def State.repliedToHeld (s : State) (dst : Addr) (r : Reply) : State :=
  emptyStage .u { queueReply dst r s with store.hold := none }.setHoldOut

theorem State.repliedToHeld_keeps (s : State) (dst : Addr) (r : Reply) :
    (s.repliedToHeld dst r).ownAddress = s.ownAddress ∧ (s.repliedToHeld dst r).mode = s.mode ∧
    (s.repliedToHeld dst r).tables = s.tables ∧ (s.repliedToHeld dst r).tally = s.tally ∧
    (s.repliedToHeld dst r).lay = s.lay ∧ (s.repliedToHeld dst r).mesh = s.mesh ∧
    (s.repliedToHeld dst r).coil = s.coil ∧ (s.repliedToHeld dst r).faults = s.faults ∧
    (s.repliedToHeld dst r).portD = s.portD ∧
    (s.repliedToHeld dst r).portU = { s.portU with transmitter := none } := by
  repeat' apply And.intro
  all_goals rfl

theorem State.repliedToHeld_iqu (s : State) (dst : Addr) (r : Reply) : (s.repliedToHeld dst r).store.iqu =
    s.store.iqu ++
      [{ frame := { dst := dst, src := s.ownAddress, kind := 17, payload := r.status :: r.data }, mark := r.mark }] :=
  rfl

/-- R128: an ALARM's entry, its source code read from the record. -/
theorem alarmEntry_eq (s : State) (r : FaultRecord) : s.alarmEntry r =
    { frame := { dst := s.tables.addressOf .master 0, src := s.ownAddress, kind := 15,
                 payload := enc1 r.kind.number ++ enc2 (r.source.getD 65535) ++ enc1 r.classTaken.code ++ enc4 r.first }
      mark := .alarm r.identity } := by
  rw [← sourceCode_eq]
  rfl

end

/-- Settles O51. -/
theorem departureServesWaiting : Obligations.DepartureServesWaiting := by
  intro f m parity s hr hm hreserved hi ht own records sent taking reply alarm waiting
  let released : Holding := { frame := f, origin := .injected m, parity := parity, released := true }
  have departs : departure .u s = emptyStage .u (sendAlarms (takeHeld (s.departing own records released))) := by
    rw [departure_injected f m parity s hm ht]
    cases m <;> rfl
  have identities : records.map FaultRecord.identity = s.faults.list.map FaultRecord.identity := by
    cases m
    case alarm i =>
      simp only [records, List.map_map]
      refine List.map_congr_left (fun r _ => ?_)
      simp only [Function.comp_apply]
      split <;> rfl
    all_goals rfl
  clear_value own records
  let x : State := s.departing own records released
  have room : s.iquHeld = x.iquHeld + 1 := departing_iquHeld ht
  have waits : waiting = x.faults.list.filter FaultRecord.waits := rfl
  have idle (hw : s.iquHeld = 4 ∨ waiting = []) : 3 ≤ x.iquHeld ∨ x.faults.list.filter FaultRecord.waits = [] :=
    hw.imp_left (fun h4 => by omega)
  have serves : departure .u s = emptyStage .u (sendAlarms (takeHeld x)) := departs
  have carries (q : Frame) (made : State × Reply) (hq : s.store.hold = some q) (h4 : s.iquHeld = 4)
      (hp : perform q.payload taking = made) : departure .u s = made.1.repliedToHeld q.src made.2 := by
    rw [serves, sendAlarms_takeHeld_of_full (s := x) hq hreserved (by omega), takeHeld_of_some (s := x) hq, ← hp]
    rfl
  have refuses (q : Frame) (status : Byte) (hq : s.store.hold = some q) (hw : s.iquHeld = 4 ∨ waiting = [])
      (hp : perform q.payload taking = (taking, Reply.bare status)) :
      departure .u s = taking.repliedToHeld q.src (Reply.bare status) := by
    rw [serves, sendAlarms_takeHeld_of_refused (s := x) hq hreserved hp (idle hw)]
    rfl
  refine ⟨_, exec_departure .u hr, by rw [serves]; rfl, ?_, ?_, ?_, fun q hq hparse hw => ?_,
    fun q r hq hw hparse ha => ?_, fun q r hq h4 hparse ha => ?_, fun hh hw => ?_, fun before r after hh hnodup h4 hrec hb hn hqd => ?_, fun hh hnodup => ?_⟩
  · simp [serves, takeHeld_hold]
  · simp [serves, x, State.departing]
  · simp [serves, x, State.departing]
  · rw [refuses q _ hq hw (perform_of_none _ hparse)]
    exact ⟨rfl, rfl, rfl, rfl, rfl, rfl⟩
  · rw [refuses q _ hq hw (perform_of_unavailable hparse ha)]
    exact ⟨rfl, rfl, rfl, rfl, rfl, rfl⟩
  · have address : (carryOut r taking).1.ownAddress = own := by simp [taking]
    rw [carries q _ hq h4 (perform_of_available hparse ha)]
    simp only [State.repliedToHeld_keeps, State.repliedToHeld_iqu, reply, address, and_self]
  · rw [serves, takeHeld_of_none (s := x) hh, sendAlarms_idle x (.inl hw)]
    rfl
  · have nodup : (x.faults.list.map FaultRecord.identity).Nodup := identities ▸ hnodup
    have list : x.faults.list = before ++ r :: after := hrec
    have kept (z : FaultRecord) (hz : z ∈ before) : z.waits = false := by
      cases hzn : z.notified
      · simpa [FaultRecord.waits, hzn] using hb z hz
      · simp [FaultRecord.waits, hzn]
    have served : servedBy (before ++ r :: after) x = [r] :=
      servedBy_oldest (by omega) kept (by simp [FaultRecord.waits, hn, hqd])
    rw [serves, takeHeld_of_none (s := x) hh, sendAlarms_eq x nodup, list, served,
      map_one_record _ (list ▸ nodup), List.map_singleton, alarmEntry_eq]
    rfl
  · have nodup : (x.faults.list.map FaultRecord.identity).Nodup := identities ▸ hnodup
    intro served
    have same : servedBy x.faults.list x = served := by
      simp only [servedBy, served, waits, room]
      congr 1
      omega
    rw [serves, takeHeld_of_none (s := x) hh, sendAlarms_eq x nodup, same, funext (alarmEntry_eq x)]
    rfl

end Sys2Proof.Machine

/-! The consistency examinations as SET_MODE and SET_PRODUCT meet them (R4 to R7). -/

namespace Sys2Proof.Machine

/-! ## A product (R6, R7) -/

section
variable {t : Tables} {i : Slot}

theorem examineProduct_of_bad (h : ¬(t.product i).consistent = true) :
    examineProduct t i = some (tableProducts, i.val) := if_neg h

theorem examineProduct_of_lays (hp : (t.product i).consistent = true) {failure : Nat × Nat}
    (h : examineLays t i = some failure) : examineProduct t i = some failure := by
  rw [examineProduct, if_pos hp, h, Option.some_or]

theorem examineProduct_of_passes (hp : (t.product i).consistent = true) (h : examineLays t i = none) :
    examineProduct t i = examineMesh t (t.product i) := by
  rw [examineProduct, if_pos hp, h, Option.none_or]

theorem examineMesh_of_rope {p : ProductRow} (h : p.kind = .rope) : examineMesh t p = none := by
  rw [examineMesh, h]

end

/-- R6: the product examined, its mesh pattern by a path of its steps. -/
theorem examineProduct_answers (t : Tables) (i : Slot) :
    let p := t.product i
    let good := p.valid = true ∧ p.gradeB < p.gradeC ∧ p.gradeC < p.rejectAt
    let inUse (u : HeadUnit) : Prop := (t.layRow i u).inUse = true
    let mapped (u : HeadUnit) : Prop := ∃ a, (t.station a).role = .head ∧ (t.station a).unit = u
    (¬good → examineProduct t i = some (4, i.val))
    ∧ (∀ u, good → inUse u → ¬mapped u → (∀ v, v < u → inUse v → mapped v) →
        examineProduct t i = some (5, i.val * 24 + u.val))
    ∧ (good → (∀ u, ¬inUse u) → examineProduct t i = some (5, i.val * 24))
    ∧ (good → (∃ u, inUse u) → (∀ u, inUse u → mapped u) → examineProduct t i = examineMesh t p) := by
  intro p good inUse mapped
  have goodIff : p.consistent = true ↔ good := consistent_iff p
  have mappedIff (u : HeadUnit) : t.hasHead u = true ↔ mapped u := hasHead_iff t u
  refine ⟨fun hg => ?_, fun u hg hu hm hv => ?_, fun hg hu => ?_, fun hg hu hm => ?_⟩
  · exact examineProduct_of_bad (mt goodIff.1 hg)
  · exact examineProduct_of_lays (goodIff.2 hg) (examineLays_unmapped t i u hu
      (Bool.eq_false_iff.2 (mt (mappedIff u).1 hm)) (fun v hlt hin => (mappedIff v).2 (hv v hlt hin)))
  · exact examineProduct_of_lays (goodIff.2 hg) (examineLays_unused t i (fun u => Bool.eq_false_iff.2 (hu u)))
  · exact examineProduct_of_passes (goodIff.2 hg) (examineLays_passes t i hu (fun u h => (mappedIff u).2 (hm u h)))

/-! ## The entry to THREADING (R4, R5) -/

theorem examineAll_of_stations {s : State} {failure : Nat × Nat}
    (h : examineStations s.ownAddress s.tables = some failure) : s.examineAll = some failure := by
  rw [State.examineAll, h, Option.some_or, Option.some_or]

theorem examineAll_of_current {s : State} {failure : Nat × Nat} (h : examineStations s.ownAddress s.tables = none)
    (hp : examineProduct s.tables s.coil.current = some failure) : s.examineAll = some failure := by
  rw [State.examineAll, h, Option.none_or, hp, Option.some_or]

theorem examineAll_of_no_next {s : State} (h : examineStations s.ownAddress s.tables = none)
    (hp : examineProduct s.tables s.coil.current = none) (hn : s.coil.next = none) : s.examineAll = none := by
  simp [State.examineAll, h, hp, hn]

theorem examineAll_of_next {s : State} {i : Slot} (h : examineStations s.ownAddress s.tables = none)
    (hp : examineProduct s.tables s.coil.current = none) (hn : s.coil.next = some i) :
    s.examineAll = examineProduct s.tables i := by
  simp [State.examineAll, h, hp, hn]

/-- R4: the map, the current product and the next one, in this order. -/
theorem examineAll_answers (s : State) :
    (∀ a, stationFaulty s.ownAddress s.tables a → (∀ b, b < a → ¬stationFaulty s.ownAddress s.tables b) →
      s.examineAll = some (2, a))
    ∧ ((∀ a, ¬stationFaulty s.ownAddress s.tables a) → (∀ a, (s.tables.station a).role ≠ .master) →
        s.examineAll = some (2, 0))
    ∧ ((∀ a, ¬stationFaulty s.ownAddress s.tables a) → (∃ a, (s.tables.station a).role = .master) →
        (examineProduct s.tables s.coil.current ≠ none → s.examineAll = examineProduct s.tables s.coil.current)
        ∧ (examineProduct s.tables s.coil.current = none → s.examineAll = match s.coil.next with
            | none => none
            | some i => examineProduct s.tables i)) := by
  obtain ⟨faulty, sound⟩ := examineStations_answers s.ownAddress s.tables
  refine ⟨fun a ha hb => examineAll_of_stations (faulty a ha hb), fun hf hm => ?_, fun hf hm => ?_⟩
  · refine examineAll_of_stations ((sound hf).trans (if_neg ?_))
    rw [hasMaster_iff]
    exact fun ⟨a, ha⟩ => hm a ha
  · have passes : examineStations s.ownAddress s.tables = none := (sound hf).trans (if_pos ((hasMaster_iff _).2 hm))
    refine ⟨fun hp => ?_, fun hp => ?_⟩
    · obtain ⟨failure, hfail⟩ := Option.ne_none_iff_exists'.1 hp
      rw [hfail, examineAll_of_current passes hfail]
    · cases hn : s.coil.next with
      | none => exact examineAll_of_no_next passes hp hn
      | some i => exact examineAll_of_next passes hp hn

end Sys2Proof.Machine

/-! The presets of a product start and of an entry to THREADING, and the cut they make at once (R26 to R30, R92, R94),
within the request that asks for them. -/

namespace Sys2Proof.Machine

/-! ## The presets and what they hand on (R26, R30, R92) -/

/-- R8, R111: COIL, MARK and WINDOW preset, and a COIL that underflows at once handed on. -/
def presetHanded (s : State) : State := handImmediate (presetAll s)

/-- R26: the length a coil has taken at its preset. -/
def State.taken (s : State) : Nat := s.product.cutLead + s.coil.openCoil.length

theorem presetAll_coil_of_short {s : State} (h : s.taken < s.product.coilTarget) :
    (presetAll s).tally.coil = OneShot.start (s.product.coilTarget - s.taken) := presetCoil_of_short h

theorem presetAll_coil_of_reached {s : State} (h : s.product.coilTarget ≤ s.taken) :
    (presetAll s).tally.coil = OneShot.exhausted (s.taken - s.product.coilTarget) := presetCoil_of_reached h

theorem presetHanded_of_short {s : State} (h : s.taken < s.product.coilTarget) : presetHanded s = presetAll s := by
  refine handImmediate_of_short ?_
  rw [presetAll_coil_of_short h]
  exact Nat.sub_ne_zero_of_lt h

theorem presetHanded_of_cut {s : State} (h : s.product.coilTarget ≤ s.taken) (hc : s.coil.openCoil.state ≠ .opened) :
    presetHanded s = presetAll s := by
  have zero : (presetAll s).tally.coil.preset = 0 := by rw [presetAll_coil_of_reached h]; rfl
  exact (if_pos zero).trans (coilUnderflowed_of_other (by simpa using hc))

/-- R92: the presets with the cut lag of a COIL that underflows at once. -/
def presetLagged (s : State) : State :=
  { presetAll s with coil.openCoil.cutLag := s.taken - s.product.coilTarget }

theorem presetHanded_of_opened {s : State} (h : s.product.coilTarget ≤ s.taken) (hc : s.coil.openCoil.state = .opened) :
    presetHanded s = cutRequest (presetLagged s) := by
  have zero : (presetAll s).tally.coil.preset = 0 := by rw [presetAll_coil_of_reached h]; rfl
  have cut := handImmediate_of_reached zero (by simpa using hc)
  rw [presetAll_coil_of_reached h] at cut
  exact cut

theorem presetHanded_tally (s : State) :
    (presetHanded s).tally.coil = (presetAll s).tally.coil ∧ (presetHanded s).tally.loaded = true
    ∧ (presetHanded s).tally.haulTotal = s.tally.haulTotal ∧ (presetHanded s).tally.windowLength = 0
    ∧ (presetHanded s).tally.window = { s.tally.window with
        running := true, current := s.product.layWindow, preset := s.product.layWindow }
    ∧ (presetHanded s).tally.mark = (if s.product.markInterval = 0 then { s.tally.mark with running := false } else
        { s.tally.mark with running := true, current := s.product.markInterval, preset := s.product.markInterval }) := by
  refine ⟨?_, ?_, ?_, ?_, ?_, ?_⟩ <;> simp only [presetHanded, handImmediate_keeps] <;> rfl

theorem presetHanded_keeps (s : State) :
    (presetHanded s).lay = s.lay ∧ (presetHanded s).mesh = s.mesh ∧ (presetHanded s).tables = s.tables
    ∧ (presetHanded s).ownAddress = s.ownAddress ∧ (presetHanded s).coil.queue = s.coil.queue
    ∧ (presetHanded s).coil.current = s.coil.current ∧ (presetHanded s).coil.next = s.coil.next
    ∧ (presetHanded s).coil.openCoil.productId = s.coil.openCoil.productId
    ∧ (presetHanded s).coil.openCoil.net = s.coil.openCoil.net
    ∧ (presetHanded s).coil.openCoil.length = s.coil.openCoil.length
    ∧ (presetHanded s).coil.openCoil.number = s.coil.openCoil.number := by
  simp [presetHanded]

/-! ## The cut request made of the presets (R94) -/

theorem presetLagged_cut (s : State) :
    (presetLagged s).cutState = s.cutState ∧ (presetLagged s).cutreqs = s.cutreqs := by
  have held : (presetLagged s).iqdHeld = s.iqdHeld := by simp [presetLagged, State.iqdHeld]
  have queue : (presetLagged s).coil.queue = s.coil.queue := by simp [presetLagged]
  have tables : (presetLagged s).tables = s.tables := by simp [presetLagged]
  have own : (presetLagged s).ownAddress = s.ownAddress := by simp [presetLagged]
  have number : (presetLagged s).coil.openCoil.number = s.coil.openCoil.number := by simp [presetLagged]
  rw [State.cutState, State.cutState, State.cutreqs, State.cutreqs, held, queue, tables, own, number]
  exact ⟨rfl, rfl⟩

/-- R94: with room in the coil queue a cut request leaves the faults, the mode and IQU. -/
theorem cutRequest_of_room {s : State} (h : s.coil.queue.length < 16) :
    (cutRequest s).mode = s.mode ∧ (cutRequest s).faults = s.faults ∧ (cutRequest s).store.iqu = s.store.iqu := by
  rcases Nat.lt_or_ge s.iqdHeld 4 with hi | hi
  · rw [cutRequest_of_sendable h hi]
    exact ⟨rfl, rfl, rfl⟩
  · rw [cutRequest_of_no_entry h hi]
    exact ⟨rfl, rfl, rfl⟩

/-! ## The request answered (R163, R192) -/

/-- R192: a request whose rule makes `s` of the state it is carried out in, its OK queued and its slot released. -/
def State.okReplied (s : State) (src : Addr) : State := endArrival (queueReply src (Reply.ok []) s)

theorem State.okReplied_keeps (s : State) (src : Addr) :
    (s.okReplied src).mode = s.mode ∧ (s.okReplied src).tally = s.tally ∧ (s.okReplied src).lay = s.lay
    ∧ (s.okReplied src).mesh = s.mesh ∧ (s.okReplied src).coil = s.coil ∧ (s.okReplied src).faults = s.faults
    ∧ (s.okReplied src).store.iqd = s.store.iqd ∧ (s.okReplied src).store.latchPending = s.store.latchPending := by
  simp [State.okReplied]

theorem State.okReplied_iqu (s : State) (src : Addr) : (s.okReplied src).store.iqu = s.store.iqu ++
    [{ frame := { dst := src, src := s.ownAddress, kind := 17, payload := [0] }, mark := .plain }] := rfl

theorem State.okReplied_head (s : State) (src : Addr) (u : HeadUnit) : (s.okReplied src).head u = s.head u := by
  simp [State.okReplied, State.head]

theorem requestMade_ok (src : Addr) {q : Request} {s t : State} (h : s.TakesRequests)
    (hp : parseRequest q.encode = some q) (ha : q.availableIn s.mode = true)
    (hc : carryOut q s.granted = (t, Reply.ok [])) : requestMade src q s = .next (t.okReplied src) := by
  rw [requestMade_taken src q s h hp ha]
  change Host.Outcome.next (endArrival (queueReply src (carryOut q s.granted).2 (carryOut q s.granted).1)) = _
  rw [hc]
  rfl

/-! ## The presets within a request -/

/-- A state a request's rule has made of `s` that differs in the mode, the lay and mesh monitors and the coil alone. -/
structure PresetsFrom (s y : State) : Prop where
  tables : y.tables = s.tables
  ownAddress : y.ownAddress = s.ownAddress
  tally : y.tally = s.tally
  faults : y.faults = s.faults
  store : y.store = s.granted.store
  transmitterU : y.portU.transmitter = s.portU.transmitter
  portD : y.portD = s.portD

section
variable {s y : State} (g : PresetsFrom s y) (src : Addr)
include g

theorem PresetsFrom.iqdHeld : y.iqdHeld = s.iqdHeld := by
  rw [State.iqdHeld, g.store, g.portD]
  rfl

theorem PresetsFrom.cutreqs (hn : y.coil.openCoil.number = s.coil.openCoil.number)
    (hq : y.coil.queue = s.coil.queue) : y.cutreqs = s.cutreqs := by
  rw [State.cutreqs, State.cutreqs, g.iqdHeld, g.tables, g.ownAddress, hn, hq]

/-- R192: the OK is the last frame of IQU. -/
theorem PresetsFrom.getLast : ((presetHanded y).okReplied src).store.iqu.getLast? = some
    { frame := { dst := src, src := s.ownAddress, kind := 17, payload := [0] }, mark := .plain } := by
  obtain ⟨-, -, -, own, -⟩ := presetHanded_keeps y
  rw [State.okReplied_iqu, List.getLast?_concat, own, g.ownAddress]

/-- R26, R192: the presets alone, answered. -/
theorem PresetsFrom.kept (hW : presetHanded y = presetAll y) :
    ((presetHanded y).okReplied src).mode = y.mode ∧ ((presetHanded y).okReplied src).coil = y.coil
    ∧ ((presetHanded y).okReplied src).faults = s.faults
    ∧ ((presetHanded y).okReplied src).store.iqu = (s.answered src [0]).store.iqu
    ∧ ((presetHanded y).okReplied src).store.iqd = s.store.iqd := by
  rw [hW]
  simp only [State.okReplied_keeps, State.okReplied_iqu, presetAll_keeps, g.faults, g.store, g.ownAddress, true_and]
  exact ⟨rfl, rfl⟩

/-- R92, R94, R192: a coil cut at once, with room in the coil queue, answered. -/
theorem PresetsFrom.cut (hr : y.product.coilTarget ≤ y.taken) (ho : y.coil.openCoil.state = .opened)
    (hq : y.coil.queue.length < 16) :
    ((presetHanded y).okReplied src).mode = y.mode ∧ ((presetHanded y).okReplied src).faults = s.faults
    ∧ ((presetHanded y).okReplied src).store.iqu = (s.answered src [0]).store.iqu
    ∧ ((presetHanded y).okReplied src).store.iqd = s.store.iqd ++ y.cutreqs := by
  obtain ⟨mode, faults, iqu⟩ := cutRequest_of_room (s := presetLagged y) (by exact hq)
  obtain ⟨-, iqd, -⟩ := cutRequest_spec (presetLagged y)
  rw [presetHanded_of_opened hr ho]
  simp only [State.okReplied_keeps, State.okReplied_iqu, mode, faults, iqu, iqd, presetLagged_cut, cutRequest_keeps]
  simp only [presetLagged, presetAll_keeps, g.faults, g.store, g.ownAddress, true_and]
  exact ⟨rfl, rfl⟩

/-- R94, R124, R192: a coil cut at once on a full coil queue: QUEUE_FULL is raised, the OK behind the ALARMs. -/
theorem PresetsFrom.full (hr : y.product.coilTarget ≤ y.taken) (ho : y.coil.openCoil.state = .opened)
    (hq : 16 ≤ y.coil.queue.length) :
    let full := raise .queueFull (some y.coil.openCoil.number) 1 0 { s with mode := y.mode, store.reserved := true }
    ((presetHanded y).okReplied src).mode = full.mode ∧ ((presetHanded y).okReplied src).faults = full.faults
    ∧ ((presetHanded y).okReplied src).store.latchPending = full.store.latchPending
    ∧ ((presetHanded y).okReplied src).store.iqd = s.store.iqd
    ∧ ((presetHanded y).okReplied src).store.iqu = full.store.iqu ++
        [{ frame := { dst := src, src := s.ownAddress, kind := 17, payload := [0] }, mark := .plain }]
    ∧ ((presetHanded y).okReplied src).faults.counters = s.faults.counters.modify 13 (fun n => min (n + 1) 65535) := by
  intro full
  let cut := setOpenState .cutWaitRoom (presetLagged y)
  have held : cut.iquHeld = ({ s with mode := y.mode, store.reserved := true } : State).iquHeld := by
    simp only [cut, State.iquHeld, setOpenState, presetLagged, presetAll_keeps, g.store, g.transmitterU]
    rfl
  obtain ⟨mode, faults, latch, iqu⟩ := raise_congr .queueFull (some y.coil.openCoil.number) 1 0 (x := cut)
    (y := { s with mode := y.mode, store.reserved := true }) rfl
    (by simp [cut, setOpenState, presetLagged]) (by simp [cut, setOpenState, presetLagged, g.faults])
    (by simp [cut, setOpenState, presetLagged, g.tables]) (by simp [cut, setOpenState, presetLagged, g.tally])
    (by simp [cut, setOpenState, presetLagged, g.ownAddress])
    (by simp [cut, setOpenState, presetLagged, g.store, State.granted])
    held (by simp [cut, setOpenState, presetLagged, g.store, State.granted])
  have number : (presetLagged y).coil.openCoil.number = y.coil.openCoil.number := by simp [presetLagged]
  have made : presetHanded y = raise .queueFull (some y.coil.openCoil.number) 1 0 cut := by
    rw [presetHanded_of_opened hr ho, cutRequest_of_full (by simpa [presetLagged] using hq), number]
  rw [made]
  refine ⟨?_, ?_, ?_, ?_, ?_, ?_⟩
  · simpa [State.okReplied_keeps] using mode
  · simpa [State.okReplied_keeps] using faults
  · simpa [State.okReplied_keeps] using latch
  · simp [State.okReplied_keeps, cut, setOpenState, presetLagged, g.store, State.granted]
  · simp only [State.okReplied_iqu, iqu, raise_keeps]
    simp [cut, setOpenState, presetLagged, g.ownAddress, full]
  · simp only [State.okReplied_keeps, faults, raise_counters]
    rfl

end

end Sys2Proof.Machine

/-! SET_PRODUCT (R110, R111) with the examination of a product (R6, R7). -/

namespace Sys2Proof.Machine

/-! ## A product start (R111) -/

theorem raise_mode_of_parked {s : State} (k : FaultKind) (src : Option Nat) (count extent : Nat) (hm : s.mode = .parked) :
    (raise k src count extent s).mode = .parked := by
  have mode := handle_mode (occurrence s k src count extent) s
  rw [show (occurrence s k src count extent).kind = k from rfl] at mode
  refine mode.trans ?_
  cases s.tables.faultClass k <;> simp [hm]

theorem presetHanded_mode_of_parked {s : State} (hm : s.mode = .parked) : (presetHanded s).mode = .parked := by
  have kept : (presetAll s).mode = .parked := by simpa using hm
  rcases Nat.lt_or_ge s.taken s.product.coilTarget with ht | ht
  · rw [presetHanded_of_short ht, kept]
  · by_cases ho : s.coil.openCoil.state = .opened
    · rw [presetHanded_of_opened ht ho]
      rcases Nat.lt_or_ge (presetLagged s).coil.queue.length 16 with hq | hq
      · rw [(cutRequest_of_room hq).1]
        exact kept
      · rw [cutRequest_of_full hq]
        exact raise_mode_of_parked _ _ _ _ kept
    · rw [presetHanded_of_cut ht ho, kept]

/-- R111: the state a product start presets from: the slot current, the open coil's product, the heads and the cursor. -/
def productLoaded (i : Slot) (s : State) : State :=
  loadCursor (productStartHeads (setOpenProduct { s with coil.current := i }))

theorem productStart_eq (i : Slot) (s : State) : productStart i s = presetHanded (productLoaded i s) := rfl

theorem productLoaded_presets (i : Slot) (s : State) : PresetsFrom s (productLoaded i s.granted) := by
  have portD : (s.frameConsumed .u).portD = s.portD := rfl
  constructor <;> simp [productLoaded, portD, State.granted]

theorem productLoaded_product (i : Slot) (s : State) : (productLoaded i s).product = s.tables.product i := by
  simp [productLoaded, State.product]

theorem productLoaded_coil (i : Slot) (s : State) : (productLoaded i s).coil = { s.coil with
    current := i
    openCoil.productId := (s.tables.product i).productId
    openCoil.net := (s.tables.product i).kind = .twineNet } := by
  simp only [productLoaded, loadCursor_keeps, productStartHeads_keeps]
  rfl

theorem productLoaded_mesh (i : Slot) (s : State) :
    (productLoaded i s).mesh = s.mesh.loadedFrom s.tables (s.tables.product i) := by
  rw [productLoaded, loadCursor_mesh]
  simp [State.product]

theorem productLoaded_head (i : Slot) (s : State) (u : HeadUnit) :
    (productLoaded i s).head u = (s.head u).productStart (s.tables.layRow i u).inUse := by
  have heads := productStartHeads_head (setOpenProduct { s with coil.current := i }) u
  simpa [productLoaded, State.head, State.layRow] using heads

theorem productLoaded_taken {i : Slot} {s : State} (h : s.coil.openCoil.length = 0) :
    (productLoaded i s).taken = (s.tables.product i).cutLead := by
  rw [State.taken, productLoaded_product, productLoaded_coil]
  exact congrArg ((s.tables.product i).cutLead + ·) h

/-! ## SET_PRODUCT on its branches (R110) -/

theorem setProductRequest_of_above {slot : Nat} (s : State) (h : 7 < slot) :
    setProductRequest slot s = (s, Reply.bare statusBadRow) := if_neg (by omega)

theorem setProductRequest_of_busy {slot : Nat} {s : State} (h : slot ≤ 7)
    (hb : s.coil.openCoil.state ≠ .opened ∨ 0 < s.coil.openCoil.length) :
    setProductRequest slot s = (s, Reply.bare statusBusy) := by
  rw [setProductRequest, if_pos (by omega), if_pos hb]

section
variable {i : Slot} {slot : Byte} {s : State} (hi : i.val = slot.toNat) (ho : s.coil.openCoil.state = .opened)
  (hl : s.coil.openCoil.length = 0)
include hi ho hl

theorem setProductRequest_of_failing {failure : Nat × Nat} (he : examineProduct s.tables i = some failure) :
    setProductRequest slot.toNat s = (s, Reply.invalidTable failure) := by
  have := i.isLt
  rw [setProductRequest, if_pos (by omega), if_neg (by simp [ho, hl]), slot_of_val hi]
  simp only [he]

theorem setProductRequest_of_passing (he : examineProduct s.tables i = none) :
    setProductRequest slot.toNat s = (productStart i s, Reply.ok []) := by
  have := i.isLt
  rw [setProductRequest, if_pos (by omega), if_neg (by simp [ho, hl]), slot_of_val hi]
  simp only [he]

end

/-! ## The presets' cut as the coil it makes (R92, R94) -/

theorem State.cutreqs_of_room {s : State} (h : s.coil.queue.length < 16) : s.cutreqs =
    if s.iqdHeld < 4 then
      [{ frame := { dst := s.tables.addressOf .cutter 127, src := s.ownAddress, kind := 9,
                    payload := enc2 s.coil.openCoil.number }, mark := .plain }]
    else [] :=
  ite_congr (propext (and_iff_right h)) (fun _ => rfl) (fun _ => rfl)

theorem presetHanded_coil_of_opened {s : State} (h : s.product.coilTarget ≤ s.taken)
    (hc : s.coil.openCoil.state = .opened) : (presetHanded s).coil = { s.coil with
      openCoil.cutLag := s.taken - s.product.coilTarget
      openCoil.state := s.cutState } := by
  obtain ⟨coil, -⟩ := cutRequest_spec (presetLagged s)
  rw [presetHanded_of_opened h hc, coil, (presetLagged_cut s).1]
  simp [presetLagged]

/-- Settles O42. -/
theorem productSet : Obligations.ProductSet := by
  refine ⟨fun t i => ?_, fun src slot s h => ?_⟩
  · intro p good inUse mapped stepGood walk
    obtain ⟨bad, unmapped, unused, passes⟩ := examineProduct_answers t i
    have stepIff (j : StepIndex) : meshRowOk (t.meshRow j) = true ↔ stepGood j := meshRowOk_iff (t.meshRow j)
    refine ⟨bad, unmapped, unused, fun hg hu hm => ⟨fun hk => ?_, fun n path hk hw hgood hn => ?_,
      fun n path hk hw hgood hend => ?_⟩⟩
    · rw [passes hg hu hm]
      exact examineMesh_of_rope hk
    · rw [passes hg hu hm]
      exact (examineMesh_follows hk hw (fun j hj => (stepIff _).2 (hgood j hj))).1
        (Bool.eq_false_iff.2 (mt (stepIff _).1 hn))
    · rw [passes hg hu hm]
      exact (examineMesh_follows hk hw (fun j hj => (stepIff _).2 (hgood j (Nat.le_of_lt hj)))).2
        ((stepIff _).2 (hgood n (Nat.le_refl n))) hend
  · intro set
    have available (hm : s.mode = .parked) : (Request.setProduct slot).availableIn s.mode = true := by
      rw [hm]
      rfl
    refine ⟨fun hm => ?_, fun hm hs => ?_, fun hm hs hb => ?_,
      fun i hi hm ho hl => ⟨fun table row he => ?_, fun he => ?_⟩⟩
    · exact requestMade_notInMode src (.setProduct slot) s h rfl (by simpa [Request.availableIn] using hm)
    · exact requestMade_reads src (q := .setProduct slot) h rfl (available hm)
        (setProductRequest_of_above s.granted hs)
    · exact requestMade_reads src (q := .setProduct slot) h rfl (available hm)
        (setProductRequest_of_busy (s := s.granted) hs hb)
    · exact requestMade_reads src (q := .setProduct slot) h rfl (available hm)
        (setProductRequest_of_failing (s := s.granted) hi ho hl he)
    · intro loaded started p left lag cutreq reply full
      let y := productLoaded i s.granted
      have g : PresetsFrom s y := productLoaded_presets i s
      have product : y.product = p := productLoaded_product i s.granted
      have coil : y.coil = { s.coil with
          current := i, openCoil.productId := p.productId, openCoil.net := p.kind = .twineNet } :=
        productLoaded_coil i s.granted
      have taken : y.taken = p.cutLead := productLoaded_taken (s := s.granted) hl
      have mode : y.mode = s.mode := by simp [y, productLoaded, State.granted]
      refine ⟨_, requestMade_ok src (q := .setProduct slot) h rfl (available hm)
        (setProductRequest_of_passing (s := s.granted) hi ho hl he), ?_⟩
      obtain ⟨tCoil, tLoaded, -, tWindowLength, tWindow, tMark⟩ := presetHanded_tally y
      obtain ⟨kLay, kMesh, -, -, kQueue, kCurrent, kNext, -⟩ := presetHanded_keeps y
      rw [productStart_eq]
      simp only [State.okReplied_keeps, State.okReplied_head]
      refine ⟨presetHanded_mode_of_parked (mode.trans hm), ?_, ?_, ?_, tLoaded, ?_, ?_, tWindowLength, ?_, fun u => ?_,
        fun ht => ?_, fun ht => ?_⟩
      · rw [kCurrent, coil]
      · rw [kNext, coil]
      · rw [kQueue, coil]
      · rw [tMark, product, g.tally]
      · rw [tWindow, product, g.tally]
      · rw [kMesh, productLoaded_mesh]
        rfl
      · have head : (presetHanded y).head u = y.head u := by rw [State.head, kLay, State.head]
        rw [head, productLoaded_head, HeadRecord.productStart_eq]
        rfl
      · have short : y.taken < y.product.coilTarget := by rwa [taken, product]
        obtain ⟨-, openCoil, faults, iqu, iqd⟩ := g.kept src (presetHanded_of_short short)
        simp only [State.okReplied_keeps] at openCoil faults iqd
        refine ⟨?_, by rw [openCoil, coil], iqu, iqd, faults⟩
        rw [tCoil, presetAll_coil_of_short short, taken, product]
        rfl
      · have reached : y.product.coilTarget ≤ y.taken := by rwa [taken, product]
        have opened : y.coil.openCoil.state = .opened := by rw [coil]; exact ho
        have queue : y.coil.queue = s.coil.queue := by rw [coil]
        have number : y.coil.openCoil.number = s.coil.openCoil.number := by rw [coil]
        have cutState : y.cutState = if 16 ≤ s.coil.queue.length then .cutWaitRoom
            else if s.iqdHeld < 4 then .cutting else .cutWaitSend := by
          rw [State.cutState, queue, g.iqdHeld]
        refine ⟨?_, ?_, ?_, fun hq => ?_, fun hq => ?_⟩
        · rw [tCoil, presetAll_coil_of_reached reached, taken, product]
          rfl
        · rw [presetHanded_coil_of_opened reached opened, cutState, taken, product, coil]
        · exact g.getLast src
        · obtain ⟨-, faults, iqu, iqd⟩ := g.cut src reached opened (by rwa [queue])
          simp only [State.okReplied_keeps] at faults iqd
          refine ⟨iqu, faults, ?_⟩
          rw [iqd, g.cutreqs number queue, State.cutreqs_of_room hq]
        · obtain ⟨-, faults, latch, iqd, iqu, counters⟩ := g.full src reached opened (by rwa [queue])
          simp only [State.okReplied_keeps, number, mode] at faults latch iqd iqu counters
          exact ⟨iqd, faults, latch, iqu, counters⟩

end Sys2Proof.Machine

/-! SET_MODE (R3, R8 to R11, R30): the modes it moves between, and the entry to THREADING. -/

namespace Sys2Proof.Machine

/-! ## SET_MODE on its branches (R3) -/

section
variable {s : State}

theorem setModeRequest_of_above {target : Nat} (s : State) (h : 2 < target) :
    setModeRequest target s = (s, Reply.bare statusBadValue) := by
  match target, h with
  | 3, _ => rfl
  | 4, _ => rfl
  | n + 5, _ => rfl

theorem setModeParked_of_leavable (h : s.mode = .threading ∨ s.mode = .halted) :
    setModeParked s = (enterParked s, Reply.ok []) := by
  rcases h with h | h <;> simp [setModeParked, h]

theorem setModeParked_of_moving (h : s.mode = .run ∨ s.mode = .creep) :
    setModeParked s = (s, Reply.bare statusNotInMode) := by
  rcases h with h | h <;> simp [setModeParked, h]

theorem setModeParked_of_parked (h : s.mode = .parked) : setModeParked s = (s, Reply.ok []) := by
  simp [setModeParked, h]

theorem setModeRun_of_run (h : s.mode = .run) : setModeRun s = (s, Reply.ok []) := by
  simp [setModeRun, h]

theorem setModeRun_of_threading (h : s.mode = .threading) : setModeRun s = (enterRun s, Reply.ok []) := by
  simp [setModeRun, h]

theorem setModeRun_of_other (h : s.mode = .parked ∨ s.mode = .creep ∨ s.mode = .halted) :
    setModeRun s = (s, Reply.bare statusNotInMode) := by
  rcases h with h | h | h <;> simp [setModeRun, h]

theorem setModeThreading_of_threading (h : s.mode = .threading) : setModeThreading s = (s, Reply.ok []) := by
  simp [setModeThreading, h]

theorem setModeThreading_of_halted (h : s.mode = .halted) :
    setModeThreading s = (s, Reply.bare statusNotInMode) := by
  simp [setModeThreading, h]

theorem setModeThreading_of_moving (h : s.mode = .run ∨ s.mode = .creep) :
    setModeThreading s = (returnToThreading s, Reply.ok []) := by
  rcases h with h | h <;> simp [setModeThreading, h]

theorem setModeThreading_of_failing {failure : Nat × Nat} (h : s.mode = .parked) (he : s.examineAll = some failure) :
    setModeThreading s = (s, Reply.invalidTable failure) := by
  simp [setModeThreading, tryThreading, h, he]

theorem setModeThreading_of_passing (h : s.mode = .parked) (he : s.examineAll = none) :
    setModeThreading s = (enterThreading s, Reply.ok []) := by
  simp [setModeThreading, tryThreading, h, he]

/-! ## The entry to THREADING (R8, R30) -/

/-- R8: the heads and the mesh monitor at the entry to THREADING from PARKED. -/
def threadingEntered (s : State) : State := enterThreadingMesh (enterThreadingHeads { s with mode := .threading })

theorem enterThreading_of_loaded (h : s.tally.loaded = true) : enterThreading s = threadingEntered s :=
  if_pos (by simpa using h)

theorem enterThreading_of_not (h : s.tally.loaded = false) :
    enterThreading s = presetHanded (setOpenProduct (threadingEntered s)) :=
  if_neg (by simpa using h)

end

theorem threadingEntered_keeps (s : State) :
    (threadingEntered s).mode = .threading ∧ (threadingEntered s).coil = s.coil
    ∧ (threadingEntered s).tally = s.tally ∧ (threadingEntered s).product = s.product := by
  simp [threadingEntered, State.product]

theorem threadingEntered_presets (s : State) : PresetsFrom s (threadingEntered s.granted) := by
  have portD : (s.frameConsumed .u).portD = s.portD := rfl
  constructor <;> simp [threadingEntered, portD, State.granted]

theorem threadingEntered_head (s : State) (u : HeadUnit) :
    (threadingEntered s).head u = (s.head u).restartBy (s.layRow u).inUse := by
  have heads := enterThreadingHeads_head { s with mode := .threading } u
  simpa [threadingEntered, State.head, State.layRow] using heads

theorem threadingEntered_mesh (s : State) : (threadingEntered s).mesh =
    if s.mesh.active = decide (s.product.kind = .twineNet) then match s.product.kind with
      | .twineNet => { s.mesh with cursor.expected := none, cursor.pitchRef := none }
      | .rope => s.mesh
    else s.mesh.loadedFrom s.tables s.product := by
  rw [threadingEntered, enterThreadingMesh_mesh]
  rfl

theorem setOpenProduct_presets {s y : State} (g : PresetsFrom s y) : PresetsFrom s (setOpenProduct y) :=
  ⟨g.tables, g.ownAddress, g.tally, g.faults, g.store, g.transmitterU, g.portD⟩

/-- Settles O41. -/
theorem modeSet : Obligations.ModeSet := by
  refine ⟨examineAll_answers, fun src target s h => ?_⟩
  intro set ok notInMode watch loaded entered
  obtain ⟨⟨⟨-, -, hreserved, -⟩, -, hfollows⟩, -⟩ := id h
  have parse : parseRequest (Request.setMode target).encode = some (.setMode target) := rfl
  have reads {status : Byte} {data : List Byte}
      (hc : setModeRequest target.toNat s.granted = (s.granted, { status := status, data := data, mark := .plain })) :
      set = .next (s.answered src (status :: data)) :=
    requestMade_reads src (q := .setMode target) h parse rfl hc
  have makes {t : State} (hc : setModeRequest target.toNat s.granted = (t.granted, Reply.ok []))
      (ht : t.HoldOutFollows) (hr : t.store.reserved = false) : set = .next (t.answered src [0]) :=
    requestMade_makes src (q := .setMode target) h parse rfl hc ht hr
  refine ⟨fun ht => ?_, fun ht => ⟨fun hm => ?_, fun hm => ?_, fun hm => ?_⟩,
    fun ht => ⟨fun hm => ?_, fun hm => ?_, fun hm => ?_⟩,
    fun ht => ⟨fun hm => ?_, fun hm => ?_, fun hm => ?_, fun table row hm he => ?_,
      fun hm he hl => ?_, fun hm he hl => ?_⟩⟩
  · exact reads (setModeRequest_of_above s.granted ht)
  · subst ht
    exact reads (setModeParked_of_parked (s := s.granted) hm)
  · subst ht
    exact reads (setModeParked_of_moving (s := s.granted) hm)
  · subst ht
    exact makes (t := { s with mode := .parked }) (setModeParked_of_leavable (s := s.granted) hm) hfollows hreserved
  · subst ht
    exact reads (setModeRun_of_run (s := s.granted) hm)
  · subst ht
    exact reads (setModeRun_of_other (s := s.granted) hm)
  · subst ht
    exact makes (t := { s with mode := .run, tally.haulwatch := watch })
      (setModeRun_of_threading (s := s.granted) hm) hfollows hreserved
  · subst ht
    exact reads (setModeThreading_of_threading (s := s.granted) hm)
  · subst ht
    exact reads (setModeThreading_of_halted (s := s.granted) hm)
  · subst ht
    exact makes (t := { s with mode := .threading, tally.haulwatch.running := false })
      (setModeThreading_of_moving (s := s.granted) hm) hfollows hreserved
  · subst ht
    exact reads (setModeThreading_of_failing (s := s.granted) hm he)
  · subst ht
    let y := threadingEntered s.granted
    have g : PresetsFrom s y := threadingEntered_presets s
    obtain ⟨mode, coil, tally, -⟩ := threadingEntered_keeps s.granted
    have made : set = .next (y.okReplied src) := requestMade_ok src (q := .setMode 1) h parse rfl
      ((setModeThreading_of_passing (s := s.granted) hm he).trans
        (congrArg (·, Reply.ok []) (enterThreading_of_loaded (s := s.granted) hl)))
    refine ⟨_, made, ?_⟩
    simp only [entered, State.okReplied_keeps, State.okReplied_head, State.okReplied_iqu]
    refine ⟨mode, tally, coil, ⟨fun u => threadingEntered_head s.granted u, threadingEntered_mesh s.granted⟩, ?_, ?_,
      g.faults⟩
    · rw [g.store, g.ownAddress]
      rfl
    · rw [g.store]
      rfl
  · subst ht
    intro q c taken cutreq replied full
    let y := setOpenProduct (threadingEntered s.granted)
    have g : PresetsFrom s y := setOpenProduct_presets (threadingEntered_presets s)
    obtain ⟨enteredMode, enteredCoil, -, enteredProduct⟩ := threadingEntered_keeps s.granted
    have mode : y.mode = .threading := enteredMode
    have product : y.product = q := enteredProduct
    have coil : y.coil = { s.coil with openCoil.productId := q.productId, openCoil.net := q.kind = .twineNet } := by
      rw [show y = setOpenProduct (threadingEntered s.granted) from rfl, setOpenProduct, enteredCoil, enteredProduct]
      rfl
    have length : y.taken = taken := by rw [State.taken, product, coil]
    have made : set = .next ((presetHanded y).okReplied src) := requestMade_ok src (q := .setMode 1) h parse rfl
      ((setModeThreading_of_passing (s := s.granted) hm he).trans
        (congrArg (·, Reply.ok []) (enterThreading_of_not (s := s.granted) hl)))
    obtain ⟨tCoil, tLoaded, tTotal, tWindowLength, tWindow, tMark⟩ := presetHanded_tally y
    obtain ⟨kLay, kMesh, -, -, kQueue, -, -, kId, kNet, kLength, kNumber⟩ := presetHanded_keeps y
    have queue : y.coil.queue = s.coil.queue := by rw [coil]
    have number : y.coil.openCoil.number = c.number := by rw [coil]
    have state : y.coil.openCoil.state = c.state := by rw [coil]
    have enters : entered ((presetHanded y).okReplied src) := by
      refine ⟨fun u => ?_, ?_⟩
      · rw [State.okReplied_head, State.head, kLay]
        exact threadingEntered_head s.granted u
      · simp only [State.okReplied_keeps, kMesh]
        exact threadingEntered_mesh s.granted
    have keptCoil (e : (presetHanded y).coil = y.coil) :
        (presetHanded y).coil.openCoil.state = c.state ∧ (presetHanded y).coil.openCoil.cutLag = c.cutLag := by
      rw [e, coil]
      exact ⟨rfl, rfl⟩
    refine ⟨_, made, enters, ?_⟩
    simp only [State.okReplied_keeps, kId, kNet, kLength, kNumber, kQueue, tLoaded, tTotal, tWindowLength, tWindow,
      tMark, tCoil, product, g.tally, true_and]
    refine ⟨?_, ?_, ?_, number, queue, g.getLast src, fun ht => ?_, fun ht => ?_⟩
    · rw [coil]
    · rw [coil]
    · rw [coil]
    · have short : y.taken < y.product.coilTarget := by rwa [length, product]
      obtain ⟨tMode, tOpen, faults, iqu, iqd⟩ := g.kept src (presetHanded_of_short short)
      simp only [State.okReplied_keeps] at tMode tOpen faults iqd
      obtain ⟨tState, tLag⟩ := keptCoil tOpen
      refine ⟨tMode.trans mode, tState, tLag, faults, iqu, iqd, ?_⟩
      rw [presetAll_coil_of_short short, length, product]
      rfl
    · have reached : y.product.coilTarget ≤ y.taken := by rwa [length, product]
      refine ⟨?_, fun hc => ?_, fun hc => ?_⟩
      · rw [presetAll_coil_of_reached reached, length, product]
        rfl
      · obtain ⟨tMode, tOpen, faults, iqu, iqd⟩ := g.kept src (presetHanded_of_cut reached (by rwa [state]))
        simp only [State.okReplied_keeps] at tMode tOpen faults iqd
        exact ⟨tMode.trans mode, (keptCoil tOpen).1, faults, iqu, iqd⟩
      · have opened : y.coil.openCoil.state = .opened := state.trans hc
        have cutState : y.cutState = if 16 ≤ s.coil.queue.length then .cutWaitRoom
            else if s.iqdHeld < 4 then .cutting else .cutWaitSend := by
          rw [State.cutState, queue, g.iqdHeld]
        have cutCoil := presetHanded_coil_of_opened reached opened
        rw [length, product, cutState] at cutCoil
        refine ⟨by rw [cutCoil], by rw [cutCoil], fun hq => ?_, fun hq => ?_⟩
        · obtain ⟨tMode, faults, iqu, iqd⟩ := g.cut src reached opened (by rwa [queue])
          simp only [State.okReplied_keeps] at tMode faults iqd
          refine ⟨tMode.trans mode, faults, iqu, ?_⟩
          rw [iqd, g.cutreqs number queue, State.cutreqs_of_room hq]
        · obtain ⟨tMode, faults, latch, iqd, iqu, counters⟩ := g.full src reached opened (by rwa [queue])
          simp only [State.okReplied_keeps, number, mode] at tMode faults latch iqd iqu counters
          exact ⟨tMode, faults, latch, iqd, iqu, counters⟩

end Sys2Proof.Machine
